-- ==== Sys2Proof/Word.lean ====
section
/-! DEFINITION. The byte, the unit of every port and of the payload buffer (00_scope.md R9, R11). -/

namespace Sys2Proof

/-- A byte: an unsigned integer 0 to 255, bit 7 most significant (00_scope.md R11). -/
abbrev Byte := BitVec 8

end Sys2Proof
end

