-- ==== Sys2Proof/Config.lean ====
section
/-! DEFINITION. The constants of 00_scope.md R9 and what the spec leaves open without a choice. -/

namespace Sys2Proof.Config

/-- `MARKER`, the radio-address marker (R9). -/
def marker : Byte := 0xEA

/-- `MAXLEN`, the maximum payload size (R9, R82). -/
def maxLen : Nat := 62

/-- The buffer's depth in bytes, derived from `MAXLEN` (R9, R24). -/
def bufDepth : Nat := 62

/-- `T_GPS` (R9). -/
def tGps : Byte := 2

/-- `T_VARIO` (R9). -/
def tVario : Byte := 7

/-- `T_BATTERY` (R9). -/
def tBattery : Byte := 8

/-- `T_LINK` (R9). -/
def tLink : Byte := 20

/-- `T_ATTITUDE` (R9). -/
def tAttitude : Byte := 30

/-- `T_FLIGHTMODE` (R9). -/
def tFlightMode : Byte := 33

/-- `T_RADIOSYNC` (R9). -/
def tRadioSync : Byte := 58

/-- `DL_BATTERY`, data bytes (R9). -/
def dlBattery : Nat := 8

/-- `DL_LINK` (R9). -/
def dlLink : Nat := 10

/-- `DL_ATTITUDE` (R9). -/
def dlAttitude : Nat := 6

/-- `DL_RADIOSYNC` (R9). -/
def dlRadioSync : Nat := 11

/-- `DL_GPS`, used only when `GV_LEN_CHECK` is true (R9). -/
def dlGps : Nat := 16

/-- `DL_VARIO`, used only when `GV_LEN_CHECK` is true (R9). -/
def dlVario : Nat := 3

/-- `SYNC_SUBTYPE`, the sync-subtype marker (R9, R88). -/
def syncSubtype : Byte := 0x10

/-- FREE VALUE. Whether the sink saw a transaction that was offered and not yet accepted when `rst`
was asserted: unspecified (70_reset_and_hazards.md R331, 93 U10(d)). The argument is `State.freeIdx`. -/
opaque withdrawnSeen : Nat → Bool

/-- FREE VALUE. How many bits a realisation's number format for degrees has (R216, parameter `DEG`). -/
opaque degWidth : Nat

/-- FREE VALUE. The parameter `DEG` (R9, R216): the realisation's representation of degrees, a function of
the decimal reading `N` and of nothing else. -/
opaque deg : BitVec 14 → BitVec degWidth

end Sys2Proof.Config
end

