-- ==== Sys2Proof/Syntax.lean ====
section
/-! DEFINITION. The scanner states, the input tokens, and the instructions: one constructor for each row
of opcode_table.json. -/

namespace Sys2Proof

/-- The scanner state `ST` (10_state.md R21); "a model should use an enumeration". -/
inductive ScanState where
  /-- "Seeking". -/
  | seek
  /-- "Reading-Length". -/
  | rdlen
  /-- "Reading-Payload". -/
  | rdpay
  /-- "processing terminates". -/
  | done
deriving DecidableEq, Repr

/-- One item of the input sequence (10_state.md R38, 92 D2). -/
inductive Token where
  /-- `Byte(b)`. -/
  | byte (b : Byte)
  /-- `EOS`: a read that yields no further bytes. -/
  | eos
deriving DecidableEq, Repr

/-- The rows of opcode_table.json. A FRAME row's `tail` is the payload after its type byte: the data and
then the integrity byte (30_encoding.md R81), empty for a one-byte payload (R101); the length byte is
its length plus one. A TOKEN row's operand is its token's byte. -/
inductive Instr where
  /-- Row BATTERY, type 8 (R181). -/
  | battery (tail : List Byte)
  /-- Row GPS, type 2 (R246). -/
  | gps (tail : List Byte)
  /-- Row VARIO, type 7 (R247). -/
  | vario (tail : List Byte)
  /-- Row ATTITUDE, type 30 (R211). -/
  | attitude (tail : List Byte)
  /-- Row LINK_STATS, type 20 (R191). -/
  | linkStats (tail : List Byte)
  /-- Row RADIO_SYNC, type 58 (R226). -/
  | radioSync (tail : List Byte)
  /-- Row FLIGHT_MODE, type 33 (R236). -/
  | flightMode (tail : List Byte)
  /-- Row UNKNOWN, any other type `t` (R248). -/
  | unknown (t : Byte) (tail : List Byte)
  /-- Row NOISE: in SEEK, a byte other than the marker (R121). -/
  | noise (b : Byte)
  /-- Row MARKER: in SEEK, the byte 0xEA (R122). -/
  | marker
  /-- Row EOS_SEEK: in SEEK, end of stream (R123). -/
  | eosSeek
  /-- Row EOS_RDLEN: in RDLEN, end of stream (R124). -/
  | eosRdlen
  /-- Row OVERSIZE: in RDLEN, a byte above 62 (R125). -/
  | oversize (b : Byte)
  /-- Row EMPTY: in RDLEN, the byte 0 (R126). -/
  | empty
  /-- Row LENGTH: in RDLEN, a byte 1 to 62, its field `L` (R127). -/
  | length (l : BitVec 6)
  /-- Row PAYLOAD_BYTE: in RDPAY, a byte that is not the last of the payload (R128). -/
  | payloadByte (b : Byte)
  /-- Row PAYLOAD_LAST: in RDPAY, the last byte of the payload (R129). -/
  | payloadLast (b : Byte)
  /-- Row EOS_RDPAY: in RDPAY, end of stream (R130). -/
  | eosRdpay
deriving DecidableEq, Repr

end Sys2Proof
end

