-- ==== Sys2Proof/WellFormed.lean ====
section
/-! DEFINITION. Which terms of `Instr` are instructions: the "constraint" column of opcode_table.json. -/

namespace Sys2Proof

/-- Why a term is no instruction. -/
inductive IllFormed where
  /-- A FRAME row's payload is longer than 62 bytes (30_encoding.md R82). -/
  | payloadTooLong
  /-- UNKNOWN with one of the seven known type codes (R102). -/
  | knownType
  /-- NOISE with the marker's value (R98). -/
  | noiseIsMarker
  /-- OVERSIZE with a byte of 62 or less (R99). -/
  | notOversize
  /-- LENGTH with `L` = 0, which is EMPTY (R100). -/
  | lengthZero
  /-- LENGTH with `L` = 63, which is OVERSIZE (R99). -/
  | lengthTooLong
deriving DecidableEq, Repr

/-- The seven known type codes (30_encoding.md R84). -/
def knownTypes : List Byte :=
  [Config.tGps, Config.tVario, Config.tBattery, Config.tLink, Config.tAttitude, Config.tFlightMode, Config.tRadioSync]

/-- The check on a FRAME row's payload: type byte and tail are at most 62 bytes (R82). -/
def tailFault (tail : List Byte) : Option IllFormed :=
  if tail.length + 1 ≤ Config.maxLen then none else some .payloadTooLong

/-- The first check a term fails, or none. -/
def Instr.fault : Instr → Option IllFormed
  | .battery tail => tailFault tail
  | .gps tail => tailFault tail
  | .vario tail => tailFault tail
  | .attitude tail => tailFault tail
  | .linkStats tail => tailFault tail
  | .radioSync tail => tailFault tail
  | .flightMode tail => tailFault tail
  | .unknown t tail => if t ∈ knownTypes then some .knownType else tailFault tail
  | .noise b => if b = Config.marker then some .noiseIsMarker else none
  | .marker => none
  | .eosSeek => none
  | .eosRdlen => none
  | .oversize b => if Config.maxLen < b.toNat then none else some .notOversize
  | .empty => none
  | .length l => if l = 0 then some .lengthZero else if Config.maxLen < l.toNat then some .lengthTooLong else none
  | .payloadByte _ => none
  | .payloadLast _ => none
  | .eosRdpay => none

/-- The term is an instruction. -/
abbrev Instr.WellFormed (i : Instr) : Prop := i.fault = none

end Sys2Proof
end

