-- ==== Sys2Proof/Decode.lean ====
section
/-! DEFINITION. The decoder of 30_encoding.md R105 (as the hardware does, by scanner state), the encoder
of R80, R81 and R106, and the host's table words. -/

namespace Sys2Proof

/-- Why a decoder answers no instruction. -/
inductive DecodeError where
  /-- A frame's first byte is not 0xEA (R80). -/
  | notMarker
  /-- A frame's length byte is above 62 (R99). -/
  | oversizeLength
  /-- A frame's length byte is 0 (R100). -/
  | emptyLength
  /-- The tokens end, or end-of-stream comes, before the frame is complete (R130). -/
  | incomplete
  /-- A byte in RDPAY with `CNT + 1 > LEN`: the transition table has no such row (R137). -/
  | pastLength
  /-- DONE consumes no token (R131). -/
  | notRead
deriving DecidableEq, Repr

/-- Where a decoder reads: one token, in a scanner state and with the registers that classify a payload
byte; or a whole frame, whose first byte is met in SEEK (R105). -/
inductive View where
  | token (st : ScanState) (len cnt : BitVec 6)
  | frame
deriving DecidableEq, Repr

/-- The TOKEN row of a token: the transition table's rows (40_frame_synchronizer.md R137), tested in the
order of 60_exceptions.md R300. -/
def decodeToken : ScanState → BitVec 6 → BitVec 6 → Token → Except DecodeError Instr
  | .seek, _, _, .eos => .ok .eosSeek
  | .seek, _, _, .byte b => if b = Config.marker then .ok .marker else .ok (.noise b)
  | .rdlen, _, _, .eos => .ok .eosRdlen
  | .rdlen, _, _, .byte b =>
    if Config.maxLen < b.toNat then .ok (.oversize b)
    else if b = 0 then .ok .empty
    else .ok (.length (b.setWidth 6))
  | .rdpay, _, _, .eos => .ok .eosRdpay
  | .rdpay, len, cnt, .byte b =>
    if cnt.toNat + 1 < len.toNat then .ok (.payloadByte b)
    else if cnt.toNat + 1 = len.toNat then .ok (.payloadLast b)
    else .error .pastLength
  | .done, _, _, _ => .error .notRead

/-- The FRAME row a type byte selects (41_payload_dispatcher.md R154); the type is examined before the
length. -/
def route (t : Byte) (tail : List Byte) : Instr :=
  if t = Config.tBattery then .battery tail
  else if t = Config.tLink then .linkStats tail
  else if t = Config.tAttitude then .attitude tail
  else if t = Config.tRadioSync then .radioSync tail
  else if t = Config.tFlightMode then .flightMode tail
  else if t = Config.tGps then .gps tail
  else if t = Config.tVario then .vario tail
  else .unknown t tail

/-- The next `n` tokens as bytes, and the tokens after them; none if they end or end-of-stream is among
them. -/
def takeBytes : Nat → List Token → Option (List Byte × List Token)
  | 0, ts => some ([], ts)
  | n + 1, .byte b :: ts => (takeBytes n ts).map fun r => (b :: r.1, r.2)
  | _ + 1, _ => none

/-- The FRAME row of a frame whose length byte is `l` (R105, steps 2 and 3). -/
def decodePayload (l : Byte) (ts : List Token) : Except DecodeError (Instr × List Token) :=
  if Config.maxLen < l.toNat then .error .oversizeLength
  else
    match l.toNat, takeBytes l.toNat ts with
    | 0, _ => .error .emptyLength
    | _ + 1, some (t :: tail, rest) => .ok (route t tail, rest)
    | _ + 1, _ => .error .incomplete

/-- The FRAME row of a frame whose first byte is met in SEEK (R105), and the tokens after it. -/
def decodeFrame : List Token → Except DecodeError (Instr × List Token)
  | .byte a :: ts =>
    if a = Config.marker then
      match ts with
      | .byte l :: ts' => decodePayload l ts'
      | _ => .error .incomplete
    else .error .notMarker
  | _ => .error .incomplete

/-- The decoder: the instruction that stands first in a list of tokens, read in a view, and the rest of
the list. -/
def decode : View → List Token → Except DecodeError (Instr × List Token)
  | .token st len cnt, t :: ts => (decodeToken st len cnt t).map fun i => (i, ts)
  | .token _ _ _, [] => .error .incomplete
  | .frame, ts => decodeFrame ts

/-- The bytes of a frame: marker, length, type, tail (R80, R81; R106 writes it `FRAME(T, d, X)`). -/
def frameBytes (t : Byte) (tail : List Byte) : List Byte :=
  Config.marker :: BitVec.ofNat 8 (tail.length + 1) :: t :: tail

/-- A FRAME row's type byte and tail; none for a TOKEN row. -/
def Instr.frameParts : Instr → Option (Byte × List Byte)
  | .battery tail => some (Config.tBattery, tail)
  | .gps tail => some (Config.tGps, tail)
  | .vario tail => some (Config.tVario, tail)
  | .attitude tail => some (Config.tAttitude, tail)
  | .linkStats tail => some (Config.tLink, tail)
  | .radioSync tail => some (Config.tRadioSync, tail)
  | .flightMode tail => some (Config.tFlightMode, tail)
  | .unknown t tail => some (t, tail)
  | .noise _ => none
  | .marker => none
  | .eosSeek => none
  | .eosRdlen => none
  | .oversize _ => none
  | .empty => none
  | .length _ => none
  | .payloadByte _ => none
  | .payloadLast _ => none
  | .eosRdpay => none

/-- The encoder: the tokens of an instruction. A FRAME row's are the bytes of its frame (R80); a TOKEN
row's is its one token (R105). -/
def encode : Instr → List Token
  | .battery tail => (frameBytes Config.tBattery tail).map .byte
  | .gps tail => (frameBytes Config.tGps tail).map .byte
  | .vario tail => (frameBytes Config.tVario tail).map .byte
  | .attitude tail => (frameBytes Config.tAttitude tail).map .byte
  | .linkStats tail => (frameBytes Config.tLink tail).map .byte
  | .radioSync tail => (frameBytes Config.tRadioSync tail).map .byte
  | .flightMode tail => (frameBytes Config.tFlightMode tail).map .byte
  | .unknown t tail => (frameBytes t tail).map .byte
  | .noise b => [.byte b]
  | .marker => [.byte Config.marker]
  | .eosSeek => [.eos]
  | .eosRdlen => [.eos]
  | .oversize b => [.byte b]
  | .empty => [.byte 0]
  | .length l => [.byte (l.setWidth 8)]
  | .payloadByte b => [.byte b]
  | .payloadLast b => [.byte b]
  | .eosRdpay => [.eos]

/-- The view in which a row of the table is read: its state, and for a payload byte whether it is the
last (opcode_table.json, columns "state" and "constraint"). -/
def Instr.readIn : Instr → View → Bool
  | .battery _, v => v == .frame
  | .gps _, v => v == .frame
  | .vario _, v => v == .frame
  | .attitude _, v => v == .frame
  | .linkStats _, v => v == .frame
  | .radioSync _, v => v == .frame
  | .flightMode _, v => v == .frame
  | .unknown _ _, v => v == .frame
  | .noise _, .token st _ _ => st == .seek
  | .marker, .token st _ _ => st == .seek
  | .eosSeek, .token st _ _ => st == .seek
  | .eosRdlen, .token st _ _ => st == .rdlen
  | .oversize _, .token st _ _ => st == .rdlen
  | .empty, .token st _ _ => st == .rdlen
  | .length _, .token st _ _ => st == .rdlen
  | .payloadByte _, .token st len cnt => st == .rdpay && decide (cnt.toNat + 1 < len.toNat)
  | .payloadLast _, .token st len cnt => st == .rdpay && decide (cnt.toNat + 1 = len.toNat)
  | .eosRdpay, .token st _ _ => st == .rdpay
  | .noise _, .frame => false
  | .marker, .frame => false
  | .eosSeek, .frame => false
  | .eosRdlen, .frame => false
  | .oversize _, .frame => false
  | .empty, .frame => false
  | .length _, .frame => false
  | .payloadByte _, .frame => false
  | .payloadLast _, .frame => false
  | .eosRdpay, .frame => false

/-! ### The host's table words

A FRAME row has 24 bits in the table, first byte most significant (R105). A TOKEN row has 8. -/

/-- The length byte a well-formed frame of a type has (30_encoding.md R84, column `L`); the shortest frame
with an integrity byte for the two rows the table leaves open. -/
def wellFormedLength (t : Byte) : Byte :=
  if t = Config.tBattery then 10
  else if t = Config.tLink then 12
  else if t = Config.tAttitude then 8
  else if t = Config.tRadioSync then 13
  else if t = Config.tGps then 18
  else if t = Config.tVario then 5
  else 2

/-- The first three bytes of a FRAME row's table word `w`: address in bits 23..16, length in bits 15..8,
type in bits 7..0. DESIGN CHOICE (log 7): the mask 0xFF00FF gives the length byte no bits, and no frame has
length 0, so a length byte of 0 is read as "not given" and the row's well-formed one is taken. -/
def tableHeader (w : Nat) : Byte × Byte × Byte :=
  let t := BitVec.ofNat 8 w
  let l := BitVec.ofNat 8 (w / 256)
  (BitVec.ofNat 8 (w / 65536), if l = 0 then wellFormedLength t else l, t)

/-- The bytes of a FRAME row's table word: its header, then zeros up to the longest frame. -/
def tableFrame (w : Nat) : List Token :=
  let (a, l, t) := tableHeader w
  .byte a :: .byte l :: .byte t :: List.replicate 61 (.byte 0)

/-- The scanner state in which an 8-bit table word is read. DESIGN CHOICE (log 7): SEEK for the marker's
value, which is row MARKER's one word; RDLEN for every other, where the table's other words with bits of
their own (EMPTY, LENGTH) are read. -/
def tableState (w : Nat) : ScanState :=
  if BitVec.ofNat 8 w = Config.marker then .seek else .rdlen

/-- The instruction the decoder reads from a table word of `nbits` bits. -/
def decodeTableWord (nbits w : Nat) : Option Instr :=
  if nbits = 24 then
    match decodeFrame (tableFrame w) with
    | .ok (i, _) => some i
    | .error _ => none
  else if nbits = 8 then
    match decodeToken (tableState w) 0 0 (.byte (BitVec.ofNat 8 w)) with
    | .ok i => some i
    | .error _ => none
  else none

end Sys2Proof
end

