-- ==== Sys2Proof/Machine/State.lean ====
section
/-! DEFINITION. The state of the core (10_state.md R20), what crosses its ports, and the state after reset. -/

namespace Sys2Proof.Machine

/-- The fourteen kinds of event (48_reporting_and_mirror.md R256). -/
inductive EventKind where
  | battery | linkStats | attitude | radioSync | flightMode
  | gpsSeen | varioSeen | unknown
  | noise | oversize | empty
  | raw | lenMismatch | attNondec
deriving DecidableEq, Repr

/-- An event: a kind and the fields of that kind, each of the width of its bus (R255, R257). -/
inductive Event where
  /-- `bat_voltage_dV`, `bat_current_dA`, `bat_consumed_mAh`, `bat_remaining_pct` (R180). -/
  | battery (voltage current consumed : BitVec 16) (remaining : Byte)
  /-- The eleven `lnk_` buses in the order of R257; the RSSI and SNR buses are two's complement (R190). -/
  | linkStats (txRSSI1 txRSSI2 : BitVec 9) (txLQ txSNR activeAntenna rfMode : Byte) (txPower : BitVec 11)
      (rxRSSI : BitVec 9) (rxLQ rxSNR : Byte) (activeRSSI : BitVec 9)
  /-- `att_pitch_e4rad`, `att_roll_e4rad`, `att_yaw_e4rad` (R212). -/
  | attitude (pitch roll yaw : BitVec 14)
  /-- `syn_rate_dus`, `syn_lag_dus` (R225). -/
  | radioSync (rate lag : BitVec 32)
  /-- `fm_len` and the meaningful entries of `fm_text` (R235). -/
  | flightMode (len : BitVec 6) (text : List Byte)
  /-- A frame of type 2 was seen; no fields (R245). -/
  | gpsSeen
  /-- A frame of type 7 was seen; no fields (R245). -/
  | varioSeen
  /-- `unk_type` (R248). -/
  | unknown (type : Byte)
  /-- `noise_byte` (R121). -/
  | noise (byte : Byte)
  /-- `bad_len` (R125). -/
  | oversize (length : Byte)
  /-- No fields (R126). -/
  | empty
  /-- `raw_len` and the meaningful entries of `raw_bytes` (R153). -/
  | raw (len : BitVec 6) (bytes : List Byte)
  /-- `mm_type`, `mm_dlen`, `mm_expected` (R156). -/
  | lenMismatch (type : Byte) (dlen : BitVec 6) (expected : BitVec 5)
  /-- `nd_fields`: bit 2 pitch, bit 1 roll, bit 0 yaw (R214). -/
  | attNondec (fields : BitVec 3)
deriving DecidableEq, Repr

/-- One transaction on `REP` (10_state.md R40): with `rep_detail` = 0 the kind alone, with `rep_detail` = 1
the event with its fields (R260). -/
inductive Report where
  | kindOnly (k : EventKind)
  | full (e : Event)
deriving DecidableEq, Repr

/-- An entry of the log: a transaction on a port (20_memory.md R65), or the mark at which a run begins. -/
inductive Transaction where
  /-- The token consumed on `RX`. -/
  | rx (t : Token)
  /-- The byte transferred on `MIR`. -/
  | mir (b : Byte)
  /-- The event transferred on `REP`. -/
  | rep (r : Report)
  /-- The MODEL's mark, no transaction: `rst` is released and a run begins with these configuration
  values (log 5). -/
  | run (verb : BitVec 2) (mirrorEn : Bool)
deriving DecidableEq, Repr

/-- What the environment does, in the order in which it takes effect (70_reset_and_hazards.md R334; log 4). -/
inductive Input where
  /-- The source offers a token on `RX`. -/
  | token (t : Token)
  /-- The source offers a token and, in its step, `rst` is asserted when the sinks have accepted
  `accepted` of the step's transactions on `MIR` and `REP` (R331). -/
  | cut (t : Token) (accepted : Nat)
  /-- The pins are driven: the level of `rst`, and of `verb_in`, `mirror_en_in` (10_state.md R42). -/
  | pins (rst : Bool) (verbIn : BitVec 2) (mirrorEnIn : Bool)
  /-- A moment in which no transaction happens: no token is offered, or a sink is not ready
  (R41, 40_frame_synchronizer.md R132). -/
  | idle
deriving DecidableEq, Repr

/-- The payload buffer's contents: (offset, byte) cells, offsets strictly rising and below 62. An offset
with no cell has NO VALUE (R36, R37; log 3). -/
abbrev Memory := List Host.Cell

/-- Why a step stops. The spec has no fault (60_exceptions.md R290, R298); each of these is met only in
states that no run reaches (`Sys2Proof.Safety.Inv` excludes them), and each is SAFE: the model stops where
the spec says nothing happens. -/
inductive Fault where
  /-- Raised by a load (`load`) of a buffer byte that nothing has written since reset (R36, R61). Safe. -/
  | bufUnwritten
  /-- Raised by a load or a store (`load`, `store`) at a payload offset of 62 or more, which does not exist
  (20_memory.md R50). Safe. -/
  | bufOutOfRange
  /-- Raised by `runToken` for a payload byte when `CNT + 1 > LEN`, for which the transition table has no
  row (R137). Safe. -/
  | noTransition
deriving DecidableEq, Repr

/-- Why an instruction has no meaning. No arm answers it. -/
inductive Refusal where
  /-- Raised by an arm of `exec` whose instruction is not modelled: by none. Safe. -/
  | notModelled (mnemonic : String)
deriving DecidableEq, Repr

/-- The state of the core. The first seven fields are the complete state of 10_state.md R20. -/
structure State where
  /-- `ST`, the scanner state (R21). -/
  st : ScanState
  /-- `LEN`, the declared payload length (R22). -/
  len : BitVec 6
  /-- `CNT`, the payload byte counter and write index (R23). -/
  cnt : BitVec 6
  /-- `BUF`, the payload buffer (R24). -/
  buf : Memory
  /-- `EOS_AT`, the state in which end-of-stream was met (R25). -/
  eosAt : ScanState
  /-- `VERB`, the reporting level (R26). -/
  verb : BitVec 2
  /-- `MIRROR_EN`, whether a mirror is attached (R27). -/
  mirrorEn : Bool
  /-- Pin `rst` is asserted (R42). -/
  rst : Bool
  /-- The MODEL's: the open parameter `GV_LEN_CHECK` (00_scope.md R9), which no step changes (log 2). -/
  gvLenCheck : Bool
  /-- The MODEL's: what the environment does next (log 4). -/
  inputs : List Input
  /-- The MODEL's: the transactions so far, oldest first, in the one order of 20_memory.md R65 (log 5). -/
  log : List Transaction
  /-- The MODEL's: which free value of `Config.withdrawnSeen` comes next (log 9). -/
  freeIdx : Nat
deriving DecidableEq, Repr

/-- The machine right after reset (70_reset_and_hazards.md R330). `verb` and `mirrorEn` are the values of
pins at reset release, which the spec leaves to the host: DESIGN CHOICE 3 and 1, those of the spec's own
vectors (log 1). `gvLenCheck`: DESIGN CHOICE, the recommended default (log 2). -/
def State.reset : State where
  st := .seek
  len := 0
  cnt := 0
  buf := []
  eosAt := .seek
  verb := 3
  mirrorEn := true
  rst := false
  gvLenCheck := false
  inputs := []
  log := []
  freeIdx := 0

end Sys2Proof.Machine
end

