-- ==== Sys2Proof/Machine/Flags.lean ====
section
/-! DEFINITION. The core has no condition codes (10_state.md R30). Its status bits are `ST`, `EOS_AT` and
`rx_ready`; the bits that gate reports are here too (48_reporting_and_mirror.md, section 2). -/

namespace Sys2Proof.Machine

/-- The code of a scanner state (R21). -/
def stateCode : ScanState → BitVec 2
  | .seek => 0
  | .rdlen => 1
  | .rdpay => 2
  | .done => 3

/-- Status pins `st_out` (R42). -/
def stOut (s : State) : BitVec 2 := stateCode s.st

/-- Status pins `eos_at_out` (R42). -/
def eosAtOut (s : State) : BitVec 2 := stateCode s.eosAt

/-- `rx_ready`: the core can consume a token. 0 in DONE (R38, R131) and while `rst` is asserted (R330). -/
def rxReady (s : State) : Bool := !s.rst && s.st != .done

/-- The kind of an event (R256). -/
def Event.kind : Event → EventKind
  | .battery .. => .battery
  | .linkStats .. => .linkStats
  | .attitude .. => .attitude
  | .radioSync .. => .radioSync
  | .flightMode .. => .flightMode
  | .gpsSeen => .gpsSeen
  | .varioSeen => .varioSeen
  | .unknown _ => .unknown
  | .noise _ => .noise
  | .oversize _ => .oversize
  | .empty => .empty
  | .raw .. => .raw
  | .lenMismatch .. => .lenMismatch
  | .attNondec _ => .attNondec

/-- The minimum level of a kind (R259). -/
def minLevel : EventKind → Nat
  | .battery => 1
  | .linkStats => 1
  | .attitude => 1
  | .radioSync => 1
  | .flightMode => 1
  | .gpsSeen => 1
  | .varioSeen => 1
  | .unknown => 1
  | .noise => 1
  | .oversize => 1
  | .empty => 1
  | .raw => 3
  | .lenMismatch => 3
  | .attNondec => 3

/-- `rep_detail`: 1 exactly when `VERB >= 2` (R260). -/
def repDetail (verb : BitVec 2) : Bool := decide (2 ≤ verb.toNat)

/-- What is transferred on `REP` for a generated event (R262): nothing below its kind's minimum level; then
its kind alone, or with its fields. -/
def reported (verb : BitVec 2) (e : Event) : List Transaction :=
  if minLevel e.kind ≤ verb.toNat then
    [.rep (if repDetail verb then .full e else .kindOnly e.kind)]
  else []

end Sys2Proof.Machine
end

