-- ==== Sys2Proof/Machine/Operands.lean ====
section
/-! DEFINITION. The operand forms: the data of a payload and how each field is assembled from it
(00_scope.md R12, R13, 30_encoding.md R91 to R97, 41_payload_dispatcher.md R152). -/

namespace Sys2Proof.Machine

/-- `data = payload[1:-1]`, from the payload after its type byte: without the integrity byte, empty for a
one-byte payload (R152, R101). Its length is `DLEN`. -/
def dataOf (tail : List Byte) : List Byte := tail.dropLast

/-- `data[i]`. A decoder reads it only for `i < DLEN` (R61). -/
def byteAt (data : List Byte) (i : Nat) : Byte := data.getD i 0

/-- The unsigned integer of some bytes, the first most significant (R52, R53). -/
def bigEndian (bytes : List Byte) : Nat := bytes.foldl (fun n b => n * 256 + b.toNat) 0

/-- `be16(i)` (R91), 0 to 65535. -/
def be16 (data : List Byte) (i : Nat) : Nat := bigEndian [byteAt data i, byteAt data (i + 1)]

/-- `be32(i)` (R91), 0 to 4294967295. -/
def be32 (data : List Byte) (i : Nat) : Nat :=
  bigEndian [byteAt data i, byteAt data (i + 1), byteAt data (i + 2), byteAt data (i + 3)]

/-- `neg9(b)`, the negated magnitude, -255 to 0 (R12, R92). -/
def neg9 (b : Byte) : Int := -(b.toNat : Int)

/-- `signed8(b)`, -128 to 127 (R12, R93). -/
def signed8 (b : Byte) : Int := if b.toNat < 128 then b.toNat else (b.toNat : Int) - 256

/-- The high nibble `b[7:4]` (R11). -/
def highNibble (b : Byte) : Nat := b.toNat / 16

/-- The low nibble `b[3:0]` (R11). -/
def lowNibble (b : Byte) : Nat := b.toNat % 16

/-- `bcd4` of the bytes `h`, `l`: the four hexadecimal digits read as a decimal number, or none if one of
them is 10 to 15 (R94). -/
def bcd4 (h l : Byte) : Option Nat :=
  if highNibble h ≤ 9 ∧ lowNibble h ≤ 9 ∧ highNibble l ≤ 9 ∧ lowNibble l ≤ 9 then
    some (1000 * highNibble h + 100 * lowNibble h + 10 * highNibble l + lowNibble l)
  else none

/-- `PWR_TABLE`, milliwatts, indices 0 to 8 (R9). -/
def pwrTable : List Nat := [0, 10, 25, 100, 500, 1000, 2000, 250, 50]

/-- The power lookup; an index of 9 or more passes through unchanged (R95, R197). -/
def pwr (p : Byte) : Nat := pwrTable.getD p.toNat p.toNat

/-- A flight-mode byte that is kept: 0x20 to 0x7E (R97). -/
def printable (c : Byte) : Bool := decide (0x20 ≤ c.toNat) && decide (c.toNat ≤ 0x7E)

/-- The kept bytes in their order (R236, R237). -/
def printableText (data : List Byte) : List Byte := data.filter printable

end Sys2Proof.Machine
end

