-- ==== Sys2Proof/Machine/Ops.lean ====
section
/-! DEFINITION. The named operations over the payload buffer, the ports and the registers, and what
"taking" a condition is in this core: `raise` (60_exceptions.md R290, R303). -/

namespace Sys2Proof.Machine

/-- The outcome of a step or of an instruction. -/
abbrev Outcome := Host.Outcome State Fault Refusal

/-- `o`, and then `f` if it is a next state. -/
def andThen (o : Outcome) (f : State → Outcome) : Outcome :=
  match o with
  | .next s => f s
  | .fault r => .fault r
  | .refused r => .refused r

/-! ### The payload buffer -/

/-- The byte of an offset, if it has a value. -/
def Memory.read : Memory → Nat → Option Byte
  | [], _ => none
  | c :: m, i => if c.1 = i then some c.2 else Memory.read m i

/-- The contents with one byte written; keeps the canonical form. -/
def Memory.write : Memory → Nat → Byte → Memory
  | [], i, b => [(i, b)]
  | c :: m, i, b =>
    if i < c.1 then (i, b) :: c :: m
    else if i = c.1 then (i, b) :: m
    else c :: Memory.write m i b

/-- The canonical form: offsets strictly rising, each below 62. -/
abbrev Memory.wf (m : Memory) : Prop :=
  (m.map Prod.fst).Pairwise (· < ·) ∧ ∀ c ∈ m, c.1 < Config.bufDepth

/-- `BUF[i]`, a load of one byte (20_memory.md R52). -/
def load (s : State) (i : Nat) : Except Fault Byte :=
  if i < Config.bufDepth then
    match s.buf.read i with
    | some b => .ok b
    | none => .error .bufUnwritten
  else .error .bufOutOfRange

/-- The `n` bytes from offset `i` on. -/
def loadBytes (s : State) (i : Nat) : Nat → Except Fault (List Byte)
  | 0 => .ok []
  | n + 1 => do
    let b ← load s i
    let bs ← loadBytes s (i + 1) n
    return b :: bs

/-- `MemRead(i, n)`: the big-endian unsigned integer of `n` bytes from offset `i` on (R52). -/
def memRead (s : State) (i n : Nat) : Except Fault Nat := (loadBytes s i n).map bigEndian

/-- `MemWrite(i, 1, b)`, the only store (R51). -/
def store (s : State) (i : Nat) (b : Byte) : Outcome :=
  if i < Config.bufDepth then .next { s with buf := s.buf.write i b } else .fault .bufOutOfRange

/-! ### The ports -/

/-- Append transactions to the log. -/
def State.addLog (s : State) (ts : List Transaction) : State := { s with log := s.log ++ ts }

/-- The RX transaction that delivers a token (R65). -/
def accept (t : Token) (s : State) : State := s.addLog [.rx t]

/-- What `mirror(b)` transfers (00_scope.md R13, 48_reporting_and_mirror.md R266). -/
def mirrored (mirrorEn : Bool) (b : Byte) : List Transaction := if mirrorEn then [.mir b] else []

/-- `mirror(b)`: one MIR transaction if a mirror is attached, else nothing (R13). -/
def mirror (b : Byte) (s : State) : State := s.addLog (mirrored s.mirrorEn b)

/-- `raise K(fields)`: generates an event, transferred according to `VERB`; execution goes on (R13, R255,
R262). All that taking a condition does beside the state change its own rule gives (R290, R303). -/
def raise (e : Event) (s : State) : State := s.addLog (reported s.verb e)

/-- Several events, in order. -/
def raiseAll (es : List Event) (s : State) : State := es.foldl (fun s e => raise e s) s

/-! ### The registers -/

/-- `ST <- st`. -/
def setSt (st : ScanState) (s : State) : State := { s with st := st }

/-- `LEN <- l`. -/
def setLen (l : BitVec 6) (s : State) : State := { s with len := l }

/-- `CNT <- c`. -/
def setCnt (c : BitVec 6) (s : State) : State := { s with cnt := c }

/-- `EOS_AT <- st`. -/
def setEosAt (st : ScanState) (s : State) : State := { s with eosAt := st }

/-- The inputs that are left. -/
def setInputs (is : List Input) (s : State) : State := { s with inputs := is }

/-- `EOS_AT <- st; ST <- DONE`: end of stream met in `st` (R123, R124, R130). -/
def endOfStream (st : ScanState) (s : State) : State := setSt .done (setEosAt st s)

/-! ### Reset -/

/-- `rst` is asserted: the core holds the reset values (10_state.md R42, 70_reset_and_hazards.md R330), the
partial frame is discarded, what was transferred stays (R331). The buffer is unspecified: no byte has a
value. `VERB` and `MIRROR_EN` are sampled at the release. -/
def enterReset (s : State) : State :=
  { s with st := .seek, len := 0, cnt := 0, buf := [], eosAt := .seek, rst := true }

/-- `rst` is released: the configuration pins are sampled and a run begins (R26, R27, R42). -/
def releaseReset (verbIn : BitVec 2) (mirrorEnIn : Bool) (s : State) : State :=
  { s with verb := verbIn, mirrorEn := mirrorEnIn, rst := false }.addLog [.run verbIn mirrorEnIn]

/-- The pins are driven. During a run `verb_in` and `mirror_en_in` are ignored (R335 (a), R347). -/
def drivePins (rst : Bool) (verbIn : BitVec 2) (mirrorEnIn : Bool) (s : State) : State :=
  if rst then enterReset s
  else if s.rst then releaseReset verbIn mirrorEnIn s
  else s

end Sys2Proof.Machine
end

