-- ==== Sys2Proof/Machine/Battery.lean ====
section
/-! DEFINITION. What the dispatcher shares among its rows, and the battery decoder (42_decoder_battery.md). -/

namespace Sys2Proof.Machine

/-- The event of a failed length condition (41_payload_dispatcher.md R156). -/
def lenMismatch (t : Byte) (dlen expected : Nat) : Event :=
  .lenMismatch t (BitVec.ofNat 6 dlen) (BitVec.ofNat 5 expected)

/-- `decode_battery` (R181); `data[6]` is not read (R182). -/
def decodeBattery (data : List Byte) : Event :=
  .battery (BitVec.ofNat 16 (be16 data 0)) (BitVec.ofNat 16 (be16 data 2)) (BitVec.ofNat 16 (be16 data 4))
    (byteAt data 7)

/-- Row BATTERY: a record if `DLEN` = 8, else a length mismatch (R154, R163, R181). -/
def execBattery (tail : List Byte) (s : State) : Outcome :=
  let data := dataOf tail
  .next (raise
    (if data.length = Config.dlBattery then decodeBattery data
     else lenMismatch Config.tBattery data.length Config.dlBattery) s)

end Sys2Proof.Machine
end

