-- ==== Sys2Proof/Machine/Attitude.lean ====
section
/-! DEFINITION. The attitude decoder (44_decoder_attitude.md). -/

namespace Sys2Proof.Machine

/-- `bcd4(i)` of the data: the decimal reading of the field at offset `i`, or none (R94, R211). -/
def digitsAt (data : List Byte) (i : Nat) : Option Nat := bcd4 (byteAt data i) (byteAt data (i + 1))

/-- `nd_fields`: bit 2 pitch, bit 1 roll, bit 0 yaw, 1 where the field has no decimal reading (R211). -/
def nondecFields (pitch roll yaw : Option Nat) : BitVec 3 :=
  BitVec.ofBool pitch.isNone ++ BitVec.ofBool roll.isNone ++ BitVec.ofBool yaw.isNone

/-- `decode_attitude` (R211): one bad field suppresses the whole record (R214). -/
def decodeAttitude (data : List Byte) : Event :=
  match digitsAt data 0, digitsAt data 2, digitsAt data 4 with
  | some p, some r, some y => .attitude (BitVec.ofNat 14 p) (BitVec.ofNat 14 r) (BitVec.ofNat 14 y)
  | p, r, y => .attNondec (nondecFields p r y)

/-- Row ATTITUDE: the length first, then the digits (R154, R163, R211, R300). -/
def execAttitude (tail : List Byte) (s : State) : Outcome :=
  let data := dataOf tail
  .next (raise
    (if data.length = Config.dlAttitude then decodeAttitude data
     else lenMismatch Config.tAttitude data.length Config.dlAttitude) s)

end Sys2Proof.Machine
end

