-- ==== Sys2Proof/Machine/FlightMode.lean ====
section
/-! DEFINITION. The flight-mode decoder (46_decoder_flight_mode.md). -/

namespace Sys2Proof.Machine

/-- `decode_flight_mode` (R236). -/
def decodeFlightMode (data : List Byte) : Event :=
  .flightMode (BitVec.ofNat 6 (printableText data).length) (printableText data)

/-- Row FLIGHT_MODE: always decoded, whatever the length (R157, R236, R238). -/
def execFlightMode (tail : List Byte) (s : State) : Outcome :=
  .next (raise (decodeFlightMode (dataOf tail)) s)

end Sys2Proof.Machine
end

