-- ==== Sys2Proof/Machine/LinkStats.lean ====
section
/-! DEFINITION. The link-statistics decoder (43_decoder_link_stats.md). -/

namespace Sys2Proof.Machine

/-- `decode_link_stats` (R191): the exact values of R192 to R198, each on its bus. -/
def decodeLinkStats (data : List Byte) : Event :=
  let r1 := neg9 (byteAt data 0)
  let r2 := neg9 (byteAt data 1)
  let ant := byteAt data 4
  .linkStats (BitVec.ofInt 9 r1) (BitVec.ofInt 9 r2) (byteAt data 2)
    (BitVec.ofInt 8 (signed8 (byteAt data 3))) ant (byteAt data 5) (BitVec.ofNat 11 (pwr (byteAt data 6)))
    (BitVec.ofInt 9 (neg9 (byteAt data 7))) (byteAt data 8) (BitVec.ofInt 8 (signed8 (byteAt data 9)))
    (BitVec.ofInt 9 (if ant = 1 then r2 else r1))

/-- Row LINK_STATS: a record if `DLEN` = 10, else a length mismatch (R154, R163, R191). -/
def execLinkStats (tail : List Byte) (s : State) : Outcome :=
  let data := dataOf tail
  .next (raise
    (if data.length = Config.dlLink then decodeLinkStats data
     else lenMismatch Config.tLink data.length Config.dlLink) s)

end Sys2Proof.Machine
end

