-- ==== Sys2Proof/Machine/RadioSync.lean ====
section
/-! DEFINITION. The radio-sync decoder (45_decoder_radio_sync.md). -/

namespace Sys2Proof.Machine

/-- Both inner markers match (R227); `data[1]` is not examined. -/
def innerMarkers (data : List Byte) : Bool :=
  decide (byteAt data 0 = Config.marker) && decide (byteAt data 2 = Config.syncSubtype)

/-- `decode_radio_sync` (R226): one record, or no event at all (R228). -/
def decodeRadioSync (data : List Byte) : List Event :=
  if innerMarkers data then
    [.radioSync (BitVec.ofNat 32 (be32 data 3)) (BitVec.ofNat 32 (be32 data 7))]
  else []

/-- Row RADIO_SYNC: the length first, then the inner markers (R154, R163, R226, R300). -/
def execRadioSync (tail : List Byte) (s : State) : Outcome :=
  let data := dataOf tail
  .next (raiseAll
    (if data.length = Config.dlRadioSync then decodeRadioSync data
     else [lenMismatch Config.tRadioSync data.length Config.dlRadioSync]) s)

end Sys2Proof.Machine
end

