-- ==== Sys2Proof/Machine/Recognise.lean ====
section
/-! DEFINITION. The handlers that decode no field: GPS, vario, unknown types (47_gps_vario_unknown.md). -/

namespace Sys2Proof.Machine

/-- Row GPS: seen, or a length mismatch if `GV_LEN_CHECK` and `DLEN` is not 16 (R246). -/
def execGps (tail : List Byte) (s : State) : Outcome :=
  let dlen := (dataOf tail).length
  .next (raise
    (if s.gvLenCheck = false ∨ dlen = Config.dlGps then .gpsSeen
     else lenMismatch Config.tGps dlen Config.dlGps) s)

/-- Row VARIO: seen, or a length mismatch if `GV_LEN_CHECK` and `DLEN` is not 3 (R247). -/
def execVario (tail : List Byte) (s : State) : Outcome :=
  let dlen := (dataOf tail).length
  .next (raise
    (if s.gvLenCheck = false ∨ dlen = Config.dlVario then .varioSeen
     else lenMismatch Config.tVario dlen Config.dlVario) s)

/-- Row UNKNOWN: the raw type code; no length check, the data is ignored (R248). -/
def execUnknown (t : Byte) (_tail : List Byte) (s : State) : Outcome := .next (raise (.unknown t) s)

end Sys2Proof.Machine
end

