-- ==== Sys2Proof/Machine/Dispatcher.lean ====
section
/-! DEFINITION. The Payload Dispatcher (41_payload_dispatcher.md). -/

namespace Sys2Proof.Machine

/-- The row of the routing table that a type byte selects, run (R154, R163). -/
def runRow (t : Byte) (tail : List Byte) (s : State) : Outcome :=
  if t = Config.tBattery then execBattery tail s
  else if t = Config.tLink then execLinkStats tail s
  else if t = Config.tAttitude then execAttitude tail s
  else if t = Config.tRadioSync then execRadioSync tail s
  else if t = Config.tFlightMode then execFlightMode tail s
  else if t = Config.tGps then execGps tail s
  else if t = Config.tVario then execVario tail s
  else execUnknown t tail s

/-- `dispatch()` (R163): `T = BUF[0]` and `BUF[1 .. LEN-1]` are loaded, RAW is raised with the whole payload
(R153), and the row that `T` selects is run. -/
def dispatch (s : State) : Outcome :=
  match load s 0, loadBytes s 1 (s.len.toNat - 1) with
  | .ok t, .ok tail => runRow t tail (raise (.raw s.len (t :: tail)) s)
  | .error r, _ => .fault r
  | .ok _, .error r => .fault r

end Sys2Proof.Machine
end

