-- ==== Sys2Proof/Machine/Scanner.lean ====
section
/-! DEFINITION. The Frame Synchronizer: one meaning per TOKEN row (40_frame_synchronizer.md). -/

namespace Sys2Proof.Machine

/-- Row NOISE (R121). -/
def execNoise (b : Byte) (s : State) : Outcome := .next (setSt .seek (raise (.noise b) s))

/-- Row MARKER (R122). -/
def execMarker (s : State) : Outcome := .next (setSt .rdlen (mirror Config.marker s))

/-- Row EOS_SEEK (R123). -/
def execEosSeek (s : State) : Outcome := .next (endOfStream .seek s)

/-- Row EOS_RDLEN (R124). -/
def execEosRdlen (s : State) : Outcome := .next (endOfStream .rdlen s)

/-- Row OVERSIZE (R125). -/
def execOversize (b : Byte) (s : State) : Outcome := .next (setSt .seek (raise (.oversize b) (mirror b s)))

/-- Row EMPTY (R126). -/
def execEmpty (s : State) : Outcome := .next (setSt .seek (raise .empty (mirror 0 s)))

/-- Row LENGTH (R127). -/
def execLength (l : BitVec 6) (s : State) : Outcome :=
  .next (setSt .rdpay (setCnt 0 (setLen l (mirror (l.setWidth 8) s))))

/-- Row PAYLOAD_BYTE (R128). -/
def execPayloadByte (b : Byte) (s : State) : Outcome :=
  andThen (store (mirror b s) s.cnt.toNat b) fun s' => .next (setSt .rdpay (setCnt (s.cnt + 1) s'))

/-- Row PAYLOAD_LAST (R129): the byte is mirrored and stored, the frame is dispatched, and the scanner
returns to SEEK "regardless of dispatch outcome". -/
def execPayloadLast (b : Byte) (s : State) : Outcome :=
  andThen (store (mirror b s) s.cnt.toNat b) fun s' =>
    andThen (dispatch s') fun s'' => .next (setSt .seek s'')

/-- Row EOS_RDPAY (R130). -/
def execEosRdpay (s : State) : Outcome := .next (endOfStream .rdpay s)

end Sys2Proof.Machine
end

