-- ==== Sys2Proof/Machine/Dispatch.lean ====
section
/-! DEFINITION. The meaning of every instruction: one arm per row of opcode_table.json. -/

namespace Sys2Proof.Machine

def exec (i : Instr) (s : State) : Host.Outcome State Fault Refusal :=
  match i with
  | .battery tail => Sys2Proof.Machine.execBattery tail s
  | .gps tail => Sys2Proof.Machine.execGps tail s
  | .vario tail => Sys2Proof.Machine.execVario tail s
  | .attitude tail => Sys2Proof.Machine.execAttitude tail s
  | .linkStats tail => Sys2Proof.Machine.execLinkStats tail s
  | .radioSync tail => Sys2Proof.Machine.execRadioSync tail s
  | .flightMode tail => Sys2Proof.Machine.execFlightMode tail s
  | .unknown t tail => Sys2Proof.Machine.execUnknown t tail s
  | .noise b => Sys2Proof.Machine.execNoise b s
  | .marker => Sys2Proof.Machine.execMarker s
  | .eosSeek => Sys2Proof.Machine.execEosSeek s
  | .eosRdlen => Sys2Proof.Machine.execEosRdlen s
  | .oversize b => Sys2Proof.Machine.execOversize b s
  | .empty => Sys2Proof.Machine.execEmpty s
  | .length l => Sys2Proof.Machine.execLength l s
  | .payloadByte b => Sys2Proof.Machine.execPayloadByte b s
  | .payloadLast b => Sys2Proof.Machine.execPayloadLast b s
  | .eosRdpay => Sys2Proof.Machine.execEosRdpay s

end Sys2Proof.Machine
end

