-- ==== Sys2Proof/Machine/Cycle.lean ====
section
/-! DEFINITION. One step: what the environment does next, and the token it offers (40_frame_synchronizer.md
R120, R131, R132; 70_reset_and_hazards.md R330, R331). And how a table word is placed where the next step
reads it. -/

namespace Sys2Proof.Machine

/-- The core consumes a token: the RX transaction, then the row that (`ST`, token) selects (R120, R137). -/
def runToken (t : Token) (s : State) : Outcome :=
  match decodeToken s.st s.len s.cnt t with
  | .ok i => exec i (accept t s)
  | .error _ => .fault .noTransition

/-- The MIR and REP transactions of a step that `rst` cuts short (R331): the first `accepted` of them, and
the one then offered if the sink saw it before it was withdrawn, which is a free value. -/
def cutOutputs (accepted : Nat) (seen : Bool) (outs : List Transaction) : List Transaction :=
  outs.take accepted ++ if seen then (outs.drop accepted).take 1 else []

/-- The core consumes a token and `rst` is asserted in its step (R331): what the sinks accepted stays, and
the core holds the reset values. -/
def runCut (t : Token) (accepted : Nat) (s : State) : Outcome :=
  let start := accept t s
  andThen (runToken t s) fun done =>
    let outs := done.log.drop start.log.length
    .next (enterReset
      { start with
        log := start.log ++ cutOutputs accepted (Config.withdrawnSeen s.freeIdx) outs
        freeIdx := s.freeIdx + 1 })

/-- The first drive of the pins among the inputs, and the inputs without it. -/
def takePins : List Input → Option ((Bool × BitVec 2 × Bool) × List Input)
  | [] => none
  | .pins r v m :: is => some ((r, v, m), is)
  | i :: is => (takePins is).map fun p => (p.1, i :: p.2)

/-- One step of a core that can consume a token; with no input it waits (R132). -/
def readyCycle (s : State) : Outcome :=
  match s.inputs with
  | [] => .next s
  | .token t :: is => runToken t (setInputs is s)
  | .cut t n :: is => runCut t n (setInputs is s)
  | .pins r v m :: is => .next (drivePins r v m (setInputs is s))
  | .idle :: is => .next (setInputs is s)

/-- One step of a core that consumes no token, in DONE or while `rst` is asserted: tokens wait, and the
pins can be driven (R131, R330). -/
def waitingCycle (s : State) : Outcome :=
  match takePins s.inputs with
  | none => .next s
  | some ((r, v, m), is) => .next (drivePins r v m (setInputs is s))

/-- One step. -/
def cycle (s : State) : Outcome := if rxReady s then readyCycle s else waitingCycle s

/-- Bytes written to the buffer from offset `i` on. -/
def fillBuf (m : Memory) (i : Nat) : List Byte → Memory
  | [] => m
  | b :: bs => fillBuf (m.write i b) (i + 1) bs

/-- The state in which the next token completes a frame: its payload but the last byte is in the buffer, and
the last byte is offered (R129). -/
def placePayload (payload : List Byte) (last : Byte) (s : State) : State :=
  { s with
    st := .rdpay
    len := BitVec.ofNat 6 (payload.length + 1)
    cnt := BitVec.ofNat 6 payload.length
    buf := fillBuf s.buf 0 payload
    rst := false
    inputs := .token (.byte last) :: s.inputs }

/-- A table word where the next step reads it (log 6, log 7): a FRAME row's payload, complete but for the
byte that is offered; a TOKEN row's byte, offered in the row's state. Tokens that make no frame are
offered in SEEK. -/
def placeWord (nbits w : Nat) (s : State) : State :=
  if nbits = 24 then
    match decodeFrame (tableFrame w) with
    | .ok (i, _) =>
      match i.frameParts with
      | some (t, tail) => placePayload (t :: tail).dropLast ((t :: tail).getLastD 0) s
      | none => s
    | .error _ =>
      { s with st := .seek, rst := false, inputs := (tableFrame w).map .token ++ s.inputs }
  else
    { s with
      st := tableState w
      rst := false
      inputs := .token (.byte (BitVec.ofNat 8 w)) :: s.inputs }

end Sys2Proof.Machine
end

