-- ==== Sys2Proof/Machine/Step.lean ====
section
/-! DEFINITION. The step, and the host's way to place one instruction before it. -/

namespace Sys2Proof.Machine

/-- One step of the machine (00_scope.md R8, 60_exceptions.md R312). -/
def step (s : State) : Host.Outcome State Fault Refusal := cycle s

/-- `s` with a table word placed so that the next step runs it (log 6, log 7). -/
def State.withFetchWord (s : State) (nbits w : Nat) : State := placeWord nbits w s

end Sys2Proof.Machine
end

