-- ==== Sys2Proof/Machine/Ports.lean ====
section
/-! DEFINITION. The ports at the level of their signals (10_state.md R38 to R40, 48_reporting_and_mirror.md
R256, R257, R260). No step reads these: they are views of the transactions. -/

namespace Sys2Proof.Machine

/-- The token that the signals `rx_eos`, `rx_data` deliver; with `rx_eos` = 1 the data is ignored (R38). -/
def rxToken (rxEos : Bool) (rxData : Byte) : Token := if rxEos then .eos else .byte rxData

/-- The code of a kind on `rep_kind[4:0]` (R256). -/
def kindCode : EventKind → BitVec 5
  | .battery => 0x01
  | .linkStats => 0x02
  | .attitude => 0x03
  | .radioSync => 0x04
  | .flightMode => 0x05
  | .gpsSeen => 0x06
  | .varioSeen => 0x07
  | .unknown => 0x08
  | .noise => 0x10
  | .oversize => 0x11
  | .empty => 0x12
  | .raw => 0x18
  | .lenMismatch => 0x19
  | .attNondec => 0x1A

/-- The signals of `REP` during one transaction (R40, R257). `fm_text` has 60 entries and `raw_bytes` 62. -/
structure RepSignals where
  rep_kind : BitVec 5
  rep_detail : Bool := false
  bat_voltage_dV : BitVec 16 := 0
  bat_current_dA : BitVec 16 := 0
  bat_consumed_mAh : BitVec 16 := 0
  bat_remaining_pct : Byte := 0
  lnk_txRSSI1 : BitVec 9 := 0
  lnk_txRSSI2 : BitVec 9 := 0
  lnk_txLQ : Byte := 0
  lnk_txSNR : Byte := 0
  lnk_activeAntenna : Byte := 0
  lnk_rfMode : Byte := 0
  lnk_txPower_mW : BitVec 11 := 0
  lnk_rxRSSI : BitVec 9 := 0
  lnk_rxLQ : Byte := 0
  lnk_rxSNR : Byte := 0
  lnk_activeRSSI : BitVec 9 := 0
  att_pitch_e4rad : BitVec 14 := 0
  att_roll_e4rad : BitVec 14 := 0
  att_yaw_e4rad : BitVec 14 := 0
  syn_rate_dus : BitVec 32 := 0
  syn_lag_dus : BitVec 32 := 0
  fm_len : BitVec 6 := 0
  fm_text : List Byte := List.replicate 60 0
  unk_type : Byte := 0
  noise_byte : Byte := 0
  bad_len : Byte := 0
  raw_len : BitVec 6 := 0
  raw_bytes : List Byte := List.replicate 62 0
  mm_type : Byte := 0
  mm_dlen : BitVec 6 := 0
  mm_expected : BitVec 5 := 0
  nd_fields : BitVec 3 := 0
deriving DecidableEq, Repr

/-- The entries of a bus of `n` bytes: the meaningful ones, then zeros (R235, R257). -/
def padTo (n : Nat) (bytes : List Byte) : List Byte := (bytes ++ List.replicate n 0).take n

/-- The signals of an event with its fields; a bus that is not of its kind is 0 (R257). -/
def fullSignals (e : Event) : RepSignals :=
  match e with
  | .battery v c m p =>
    { rep_kind := kindCode .battery, rep_detail := true, bat_voltage_dV := v, bat_current_dA := c,
      bat_consumed_mAh := m, bat_remaining_pct := p }
  | .linkStats r1 r2 lq snr ant rf pw rr rlq rsn act =>
    { rep_kind := kindCode .linkStats, rep_detail := true, lnk_txRSSI1 := r1, lnk_txRSSI2 := r2, lnk_txLQ := lq,
      lnk_txSNR := snr, lnk_activeAntenna := ant, lnk_rfMode := rf, lnk_txPower_mW := pw, lnk_rxRSSI := rr,
      lnk_rxLQ := rlq, lnk_rxSNR := rsn, lnk_activeRSSI := act }
  | .attitude p r y =>
    { rep_kind := kindCode .attitude, rep_detail := true, att_pitch_e4rad := p, att_roll_e4rad := r,
      att_yaw_e4rad := y }
  | .radioSync r g =>
    { rep_kind := kindCode .radioSync, rep_detail := true, syn_rate_dus := r, syn_lag_dus := g }
  | .flightMode n t =>
    { rep_kind := kindCode .flightMode, rep_detail := true, fm_len := n, fm_text := padTo 60 t }
  | .gpsSeen => { rep_kind := kindCode .gpsSeen, rep_detail := true }
  | .varioSeen => { rep_kind := kindCode .varioSeen, rep_detail := true }
  | .unknown t => { rep_kind := kindCode .unknown, rep_detail := true, unk_type := t }
  | .noise b => { rep_kind := kindCode .noise, rep_detail := true, noise_byte := b }
  | .oversize b => { rep_kind := kindCode .oversize, rep_detail := true, bad_len := b }
  | .empty => { rep_kind := kindCode .empty, rep_detail := true }
  | .raw n bs => { rep_kind := kindCode .raw, rep_detail := true, raw_len := n, raw_bytes := padTo 62 bs }
  | .lenMismatch t d x =>
    { rep_kind := kindCode .lenMismatch, rep_detail := true, mm_type := t, mm_dlen := d, mm_expected := x }
  | .attNondec f => { rep_kind := kindCode .attNondec, rep_detail := true, nd_fields := f }

/-- The signals of a REP transaction; with `rep_detail` = 0 every field bus is 0 (R260). -/
def Report.signals : Report → RepSignals
  | .kindOnly k => { rep_kind := kindCode k }
  | .full e => fullSignals e

end Sys2Proof.Machine
end

