-- ==== Sys2Proof/Machine/Records.lean ====
section
/-! DEFINITION. The records of the events: the exact physical values behind the integers on the buses
(00_scope.md R14, 30_encoding.md R96, 44_decoder_attitude.md R216). No step reads these. -/

namespace Sys2Proof.Machine

/-- A bus in tenths of a unit: the exact quotient, nothing rounded (R96). -/
def tenths {w : Nat} (bus : BitVec w) : ℚ := (bus.toNat : ℚ) / 10

/-- An attitude bus in radians: the exact quotient (R216). -/
def radians (bus : BitVec 14) : ℚ := (bus.toNat : ℚ) / 10000

/-- `deg(N)`, the exact degrees of an attitude bus (R216). -/
noncomputable def degrees (bus : BitVec 14) : ℝ := ((radians bus : ℚ) : ℝ) * (180 / Real.pi)

/-- `BatteryStats` (R180): volts, amps, mAh, percent. -/
structure BatteryStats where
  voltage : ℚ
  current : ℚ
  consumed_mAh : Nat
  remaining_percent : Nat
deriving DecidableEq

/-- `LinkStats` with the RF-mode byte and the active RSSI (R190): dBm, dB, mW or a raw index (R197). -/
structure LinkStats where
  txRSSI1 : Int
  txRSSI2 : Int
  activeAntenna : Nat
  txLQ : Nat
  txSNR : Int
  txPower : Nat
  rxRSSI : Int
  rxLQ : Nat
  rxSNR : Int
  rfMode : Nat
  activeRSSI : Int
deriving DecidableEq

/-- `RadioSync` (R225): microseconds. -/
structure RadioSync where
  rate_us : ℚ
  lag_us : ℚ
deriving DecidableEq

/-- The `BatteryStats` record of an event, if it carries one (R180). -/
def Event.batteryStats : Event → Option BatteryStats
  | .battery v c m p => some ⟨tenths v, tenths c, m.toNat, p.toNat⟩
  | _ => none

/-- The `LinkStats` record of an event, if it carries one (R190). -/
def Event.linkRecord : Event → Option LinkStats
  | .linkStats r1 r2 lq snr ant rf pw rr rlq rsn act =>
    some { txRSSI1 := r1.toInt, txRSSI2 := r2.toInt, activeAntenna := ant.toNat, txLQ := lq.toNat,
           txSNR := snr.toInt, txPower := pw.toNat, rxRSSI := rr.toInt, rxLQ := rlq.toNat, rxSNR := rsn.toInt,
           rfMode := rf.toNat, activeRSSI := act.toInt }
  | _ => none

/-- The `RadioSync` record of an event, if it carries one (R225). -/
def Event.syncRecord : Event → Option RadioSync
  | .radioSync r g => some ⟨tenths r, tenths g⟩
  | _ => none

/-- The `Attitude` record of an event in exact degrees, pitch, roll, yaw, if it carries one (R212). -/
noncomputable def Event.attitudeDegrees : Event → Option (ℝ × ℝ × ℝ)
  | .attitude p r y => some (degrees p, degrees r, degrees y)
  | _ => none

/-- The same record through a realisation's parameter `DEG` (R216). -/
def Event.attitudeDeg : Event → Option (BitVec Config.degWidth × BitVec Config.degWidth × BitVec Config.degWidth)
  | .attitude p r y => some (Config.deg p, Config.deg r, Config.deg y)
  | _ => none

/-- The `FlightMode` record of an event, if it carries one (R235). -/
def Event.flightText : Event → Option (List Byte)
  | .flightMode _ t => some t
  | _ => none

end Sys2Proof.Machine
end

