-- ==== Sys2Proof/Safety.lean ====
section
/-! DEFINITION. What claims are stated in: the invariants of 10_state.md R35, what a run is observed by
(00_scope.md R8), and how a run is put together. -/

namespace Sys2Proof.Safety

open Sys2Proof.Machine

/-- The state invariants (10_state.md R35), with the buffer's canonical form and the states `rst` allows. -/
structure Inv (s : State) : Prop where
  /-- R35 (a). -/
  frame : s.st = .rdpay → 1 ≤ s.len.toNat ∧ s.len.toNat ≤ Config.maxLen ∧ s.cnt.toNat < s.len.toNat
  /-- R35 (b), R36: the payload bytes counted so far have a value. -/
  stored : s.st = .rdpay → ∀ i < s.cnt.toNat, (s.buf.read i).isSome
  /-- R35 (d), R25: the stage is never DONE, and is SEEK unless the run has ended. -/
  stage : s.eosAt ≠ .done ∧ (s.st ≠ .done → s.eosAt = .seek)
  /-- The buffer's canonical form. -/
  buffer : s.buf.wf
  /-- While `rst` is asserted the core holds the reset values (R42, R330). -/
  held : s.rst = true → s.st = .seek ∧ s.len = 0 ∧ s.cnt = 0

/-- The sequence of bytes on MIR in a log (R8). -/
def mirBytes (log : List Transaction) : List Byte :=
  log.filterMap fun t => match t with
    | .mir b => some b
    | .rx _ => none
    | .rep _ => none
    | .run _ _ => none

/-- The sequence of reports on REP in a log (R8). -/
def reports (log : List Transaction) : List Report :=
  log.filterMap fun t => match t with
    | .rep r => some r
    | .rx _ => none
    | .mir _ => none
    | .run _ _ => none

/-- The sequence of tokens consumed on RX in a log. -/
def tokensRead (log : List Transaction) : List Token :=
  log.filterMap fun t => match t with
    | .rx t => some t
    | .mir _ => none
    | .rep _ => none
    | .run _ _ => none

/-- `n` steps of the machine. -/
def steps (n : Nat) (s : State) : Outcome := Host.Core.run Sys2Proof.core n s

/-- Two states that differ at most in `VERB` and in the log (R262, R269). -/
def SameButReports (s t : State) : Prop := { s with verb := t.verb, log := t.log } = t

/-- Two states that differ at most in `MIRROR_EN` and in the log (R266). -/
def SameButMirror (s t : State) : Prop := { s with mirrorEn := t.mirrorEn, log := t.log } = t

/-- Two states that differ at most in `LEN`, `CNT` and `BUF` (R36). -/
def SameButDead (s t : State) : Prop := { s with len := t.len, cnt := t.cnt, buf := t.buf } = t

/-- The payload of the frame being completed: the bytes counted so far and the last one (R129). -/
def payloadWith (s : State) (b : Byte) : Option (List Byte) :=
  match loadBytes s 0 s.cnt.toNat with
  | .ok bs => some (bs ++ [b])
  | .error _ => none

/-- The kind of a report. -/
def reportKind : Report → EventKind
  | .kindOnly k => k
  | .full e => e.kind

/-- Bytes offered one after another. -/
def bytesIn (bs : List Byte) : List Input := bs.map fun b => .token (.byte b)

/-- Where the input alone says a byte stands: outside an attempt, after a marker, or with so many payload
bytes to come. -/
inductive Phase where
  | seek
  | rdlen
  | rdpay (left : Nat)

/-- The bytes of every frame attempt of an input: "sync-marker byte, length byte, and (if read) payload
bytes" (40_frame_synchronizer.md R138). A function of the input alone; no state, no level, no type. -/
def attemptBytes : Phase → List Token → List Byte
  | _, [] => []
  | _, .eos :: _ => []
  | .seek, .byte b :: ts => if b = 0xEA then b :: attemptBytes .rdlen ts else attemptBytes .seek ts
  | .rdlen, .byte b :: ts =>
    b :: attemptBytes (if b = 0 ∨ 62 < b.toNat then .seek else .rdpay b.toNat) ts
  | .rdpay n, .byte b :: ts => b :: attemptBytes (if n ≤ 1 then .seek else .rdpay (n - 1)) ts

end Sys2Proof.Safety
end

