-- ==== Sys2Proof/Certificates/Slice0/Obligations.lean ====
section
/-! DEFINITION. The statements for the provers. Rule numbers are those of spec/. Where a statement says
`t = { s with … }` or `s.addLog …`, every field that is not named is unchanged: that is its frame. -/

open Sys2Proof Sys2Proof.Machine Sys2Proof.Safety

/-! ### Encoding -/

/-- R80, R81, R105: every instruction is read back from its encoding, in every view that reads its row, with
every operand at every value its encoding admits, whatever follows it. -/
def Obligations.DecodeReadsEncode : Prop :=
  ∀ (i : Instr) (v : View) (rest : List Token), i.WellFormed → i.readIn v = true →
    decode v (encode i ++ rest) = .ok (i, rest)

/-- R105, R137: what the decoder reads is an instruction, of a row of that view, and its encoding is exactly
the tokens read. -/
def Obligations.EncodeWritesWhatDecodeRead : Prop :=
  ∀ (v : View) (ts : List Token) (i : Instr) (rest : List Token), decode v ts = .ok (i, rest) →
    ts = encode i ++ rest ∧ i.WellFormed ∧ i.readIn v = true

/-- Frames written out byte by byte from R80 to R84 and R106, and tokens of R98 to R100, decode to the
instructions they stand for. -/
def Obligations.WrittenOutWordsDecode : Prop :=
  decode .frame ([0xEA, 0x05, 0x07, 0x01, 0x02, 0x03, 0x99].map .byte) = .ok (.vario [1, 2, 3, 0x99], []) ∧
  decode .frame ([0xEA, 0x01, 0x21].map .byte) = .ok (.flightMode [], []) ∧
  decode .frame ([0xEA, 0x04, 0x29, 0x01, 0x02, 0x00].map .byte) = .ok (.unknown 0x29 [1, 2, 0], []) ∧
  decode .frame ([0xEA, 0x02, 0x3A, 0x00, 0x55].map .byte) = .ok (.radioSync [0], [.byte 0x55]) ∧
  decode (.token .seek 0 0) [.byte 0xEA] = .ok (.marker, []) ∧
  decode (.token .rdlen 0 0) [.byte 0xEA] = .ok (.oversize 0xEA, []) ∧
  decode (.token .rdlen 0 0) [.byte 0x3E] = .ok (.length 62, []) ∧
  decode (.token .rdpay 10 9) [.byte 0xEA] = .ok (.payloadLast 0xEA, [])

/-- "Every (state, token) pair has exactly one row" (40_frame_synchronizer.md R137, which the spec marks as derived
from R121 to R131). -/
def Obligations.EveryTokenHasExactlyOneRow : Prop :=
  ∀ (s : State) (t : Token), Inv s → s.st ≠ .done →
    ∃ i, (i.WellFormed ∧ encode i = [t] ∧ i.readIn (.token s.st s.len s.cnt) = true) ∧
      ∀ j, j.WellFormed → encode j = [t] → j.readIn (.token s.st s.len s.cnt) = true → j = i

/-- R80, R99, R100: byte strings that are no frame are refused by name. -/
def Obligations.NonFramesAreRefused : Prop :=
  (∀ (a : Byte) (ts : List Token), a ≠ 0xEA → decodeFrame (.byte a :: ts) = .error .notMarker) ∧
  (∀ (l : Byte) (ts : List Token), 62 < l.toNat → decodeFrame (.byte 0xEA :: .byte l :: ts) = .error .oversizeLength) ∧
  (∀ ts : List Token, decodeFrame (.byte 0xEA :: .byte 0 :: ts) = .error .emptyLength)

/-! ### The step -/

/-- R120: when the core is ready and a token is offered, the step is the meaning of the row that
(`ST`, token) selects, after the RX transaction that takes the token from the inputs. -/
def Obligations.StepRunsTheDecodedInstruction : Prop :=
  ∀ (s : State) (t : Token) (is : List Input) (i : Instr), rxReady s = true → s.inputs = .token t :: is →
    decode (.token s.st s.len s.cnt) [t] = .ok (i, []) →
    step s = exec i { s with inputs := is, log := s.log ++ [.rx t] }

/-- R153, R154, R163, and the mirror, the store and `ST <- SEEK` of R129: the last payload byte is mirrored and
stored, RAW is raised with the whole payload, the FRAME row that `BUF[0]` selects is run, and the scanner
returns to SEEK. That a FRAME row, with the payload after its type byte as its operand, is run inside
PAYLOAD_LAST is the model's reading and choice (log 8). -/
def Obligations.LastByteRunsTheSelectedFrameRow : Prop :=
  ∀ (s : State) (b t : Byte) (tail : List Byte), s.cnt.toNat + 1 = s.len.toNat → s.len.toNat ≤ 62 →
    payloadWith s b = some (t :: tail) →
    exec (.payloadLast b) s =
      andThen
        (exec (route t tail)
          { s with
            buf := s.buf.write s.cnt.toNat b
            log := s.log ++ (if s.mirrorEn then [.mir b] else []) ++ reported s.verb (.raw s.len (t :: tail)) })
        fun u => .next { u with st := .seek }

/-- R80, R105, R129, and R138, which the spec marks as derived: a frame offered token by token to a core in SEEK
is consumed in `L + 2` steps; after them the core is in SEEK, the buffer holds the payload, the mirror has
received exactly the frame's bytes, and REP has received RAW and then what the frame's row itself reports. That
a FRAME row, with the payload after its type byte as its operand, is an instruction run inside the last of these
steps is the model's reading and choice (log 8). -/
def Obligations.FrameTokensRunItsRow : Prop :=
  ∀ (s : State) (i : Instr) (t : Byte) (tail : List Byte) (is : List Input), Inv s → rxReady s = true →
    s.st = .seek → i.WellFormed → i.frameParts = some (t, tail) →
    s.inputs = (encode i).map .token ++ is →
    ∃ u v, steps (tail.length + 3) s = .next u ∧ exec i s = .next v ∧
      u.st = .seek ∧ u.len.toNat = tail.length + 1 ∧ u.cnt.toNat = tail.length ∧
      loadBytes u 0 (tail.length + 1) = .ok (t :: tail) ∧
      u.eosAt = s.eosAt ∧ u.verb = s.verb ∧ u.mirrorEn = s.mirrorEn ∧ u.rst = s.rst ∧ u.inputs = is ∧
      tokensRead u.log = tokensRead s.log ++ encode i ∧
      mirBytes u.log = mirBytes s.log ++ (if s.mirrorEn then frameBytes t tail else []) ∧
      reports u.log = reports s.log ++ reports (reported s.verb (.raw (BitVec.ofNat 6 (tail.length + 1)) (t :: tail)))
        ++ reports (v.log.drop s.log.length)

/-! ### Invariants and safety -/

/-- The state after reset meets the invariants of R35. What the spec does not fix of that state is the model's
choice (log 1, log 2, log 3). -/
def Obligations.ResetMeetsInvariant : Prop := Inv State.reset

/-- Every step keeps the invariants of R35 (which the spec marks as derived), in every state that meets them. -/
def Obligations.StepKeepsInvariant : Prop :=
  ∀ s u : State, Inv s → step s = .next u → Inv u

/-- "No condition aborts" (R290), "The dispatcher never stops the core" (R160): no step stops, whatever the input
and whatever comes next, in any state that meets the invariants. -/
def Obligations.NoStepStops : Prop :=
  ∀ s : State, Inv s → ∃ u, step s = .next u

/-! ### The rows of SEEK and RDLEN -/

/-- R121: a noise byte. -/
def Obligations.NoiseRow : Prop :=
  (∀ (b : Byte) (s : State),
    exec (.noise b) s = .next { s with st := .seek, log := s.log ++ reported s.verb (.noise b) }) ∧
  (∀ (b : Byte) (s : State) (is : List Input), s.rst = false → s.st = .seek → s.inputs = .token (.byte b) :: is →
    b ≠ 0xEA →
    step s = .next { s with inputs := is, log := s.log ++ [.rx (.byte b)] ++ reported s.verb (.noise b) })

/-- R122: the marker. -/
def Obligations.MarkerRow : Prop :=
  (∀ s : State,
    exec .marker s = .next { s with st := .rdlen, log := s.log ++ (if s.mirrorEn then [.mir 0xEA] else []) }) ∧
  (∀ (s : State) (is : List Input), s.rst = false → s.st = .seek → s.inputs = .token (.byte 0xEA) :: is →
    step s = .next { s with
      st := .rdlen, inputs := is
      log := s.log ++ [.rx (.byte 0xEA)] ++ (if s.mirrorEn then [.mir 0xEA] else []) })

/-- R125: an oversized length. -/
def Obligations.OversizeRow : Prop :=
  (∀ (b : Byte) (s : State),
    exec (.oversize b) s = .next { s with
      st := .seek
      log := s.log ++ (if s.mirrorEn then [.mir b] else []) ++ reported s.verb (.oversize b) }) ∧
  (∀ (b : Byte) (s : State) (is : List Input), s.rst = false → s.st = .rdlen → s.inputs = .token (.byte b) :: is →
    62 < b.toNat →
    step s = .next { s with
      st := .seek, inputs := is
      log := s.log ++ [.rx (.byte b)] ++ (if s.mirrorEn then [.mir b] else []) ++ reported s.verb (.oversize b) })

/-- A length of zero. "DOC0 is silent on this case"; R126 is the spec's own choice. -/
def Obligations.EmptyRow : Prop :=
  (∀ s : State,
    exec .empty s = .next { s with
      st := .seek
      log := s.log ++ (if s.mirrorEn then [.mir 0] else []) ++ reported s.verb .empty }) ∧
  (∀ (s : State) (is : List Input), s.rst = false → s.st = .rdlen → s.inputs = .token (.byte 0) :: is →
    step s = .next { s with
      st := .seek, inputs := is
      log := s.log ++ [.rx (.byte 0)] ++ (if s.mirrorEn then [.mir 0] else []) ++ reported s.verb .empty })

/-- R127: an accepted length. -/
def Obligations.LengthRow : Prop :=
  (∀ (l : BitVec 6) (s : State), ∃ b : Byte, b.toNat = l.toNat ∧
    exec (.length l) s = .next { s with
      st := .rdpay, len := l, cnt := 0, log := s.log ++ (if s.mirrorEn then [.mir b] else []) }) ∧
  (∀ (b : Byte) (s : State) (is : List Input), s.rst = false → s.st = .rdlen → s.inputs = .token (.byte b) :: is →
    1 ≤ b.toNat → b.toNat ≤ 62 →
    ∃ l : BitVec 6, l.toNat = b.toNat ∧
    step s = .next { s with
      st := .rdpay, len := l, cnt := 0, inputs := is
      log := s.log ++ [.rx (.byte b)] ++ (if s.mirrorEn then [.mir b] else []) })

/-! ### The rows of RDPAY, end of stream, DONE -/

/-- R128: a payload byte that is not the last. Every other byte of the buffer reads as before. -/
def Obligations.PayloadByteRow : Prop :=
  (∀ (b : Byte) (s : State), s.cnt.toNat + 1 < s.len.toNat →
    ∃ t, exec (.payloadByte b) s = .next t ∧
      t = { s with
        st := .rdpay, cnt := s.cnt + 1, buf := t.buf, log := s.log ++ (if s.mirrorEn then [.mir b] else []) } ∧
      t.cnt.toNat = s.cnt.toNat + 1 ∧
      load t s.cnt.toNat = .ok b ∧ ∀ j, j ≠ s.cnt.toNat → load t j = load s j) ∧
  (∀ (b : Byte) (s : State) (is : List Input), s.rst = false → s.st = .rdpay → s.inputs = .token (.byte b) :: is →
    s.cnt.toNat + 1 < s.len.toNat →
    step s = exec (.payloadByte b) { s with inputs := is, log := s.log ++ [.rx (.byte b)] })

/-- R129: the last payload byte. The scanner returns to SEEK whatever the payload; `CNT` and `LEN` are left;
every other byte of the buffer reads as before; the mirror byte comes before what is reported. -/
def Obligations.PayloadLastRow : Prop :=
  (∀ (b : Byte) (s : State), Inv s → s.st = .rdpay → s.cnt.toNat + 1 = s.len.toNat →
    ∃ (t : State) (rs : List Report), exec (.payloadLast b) s = .next t ∧
      t = { s with
        st := .seek, buf := t.buf, log := s.log ++ (if s.mirrorEn then [.mir b] else []) ++ rs.map .rep } ∧
      load t s.cnt.toNat = .ok b ∧ ∀ j, j ≠ s.cnt.toNat → load t j = load s j) ∧
  (∀ (b : Byte) (s : State) (is : List Input), s.rst = false → s.st = .rdpay → s.inputs = .token (.byte b) :: is →
    s.cnt.toNat + 1 = s.len.toNat →
    step s = exec (.payloadLast b) { s with inputs := is, log := s.log ++ [.rx (.byte b)] })

/-- R123, R124, R130: end of stream in each of the three states. -/
def Obligations.EndOfStreamRows : Prop :=
  (∀ s : State, exec .eosSeek s = .next { s with eosAt := .seek, st := .done }) ∧
  (∀ s : State, exec .eosRdlen s = .next { s with eosAt := .rdlen, st := .done }) ∧
  (∀ s : State, exec .eosRdpay s = .next { s with eosAt := .rdpay, st := .done }) ∧
  (∀ (s : State) (is : List Input), s.rst = false → s.st ≠ .done → s.inputs = .token .eos :: is →
    step s = .next { s with eosAt := s.st, st := .done, inputs := is, log := s.log ++ [.rx .eos] })

/-- R131: in DONE nothing is consumed, produced or changed, whatever tokens are offered, for as long as the pins
are not driven; and one step changes nothing of the core unless it asserts `rst`. -/
def Obligations.DoneIsAbsorbing : Prop :=
  (∀ (n : Nat) (s : State), s.st = .done → s.rst = false → (∀ r v m, Input.pins r v m ∉ s.inputs) →
    rxReady s = false ∧ steps n s = .next s) ∧
  (∀ s u : State, s.st = .done → s.rst = false → step s = .next u → u.rst = true ∨ u = { s with inputs := u.inputs })

/-- R132, R41: waiting changes nothing of the core. That a moment of waiting is an input or a step at all is the
model's choice (log 4, log 10). -/
def Obligations.WaitingChangesNothing : Prop :=
  (∀ s : State, s.inputs = [] → step s = .next s) ∧
  (∀ (s : State) (is : List Input), rxReady s = true → s.inputs = .idle :: is → step s = .next { s with inputs := is })

/-- R352, which the spec marks as derived: a run ends at the first end-of-stream, after exactly as many steps as
there are tokens up to and including it, and not before. -/
def Obligations.RunEndsExactlyAtEndOfStream : Prop :=
  ∀ (s : State) (bs : List Byte) (is : List Input), Inv s → rxReady s = true →
    s.inputs = bytesIn bs ++ .token .eos :: is →
    (∃ u, steps (bs.length + 1) s = .next u ∧ u.st = .done ∧ u.inputs = is ∧
      tokensRead u.log = tokensRead s.log ++ bs.map .byte ++ [.eos]) ∧
    ∀ k ≤ bs.length, ∃ v, steps k s = .next v ∧ v.st ≠ .done

/-- R51, and R23, which the spec marks as derived: payload bytes are stored in arrival order at ascending
offsets from 0, and `CNT` counts them. -/
def Obligations.PayloadIsStoredInArrivalOrder : Prop :=
  ∀ (s : State) (bs : List Byte) (is : List Input), Inv s → s.st = .rdpay → s.cnt = 0 → bs.length < s.len.toNat →
    s.inputs = bytesIn bs ++ is →
    ∃ u, steps bs.length s = .next u ∧ u.st = .rdpay ∧ u.len = s.len ∧ u.cnt.toNat = bs.length ∧
      loadBytes u 0 bs.length = .ok bs ∧ reports u.log = reports s.log

/-- R134, and R139, which the spec marks as derived: an attempt whose length is oversized or zero costs its two
bytes and nothing more, and what follows is examined in SEEK. -/
def Obligations.AbandonedAttemptCostsTwoBytes : Prop :=
  ∀ (s : State) (l : Byte) (is : List Input), s.rst = false → s.st = .seek →
    s.inputs = .token (.byte 0xEA) :: .token (.byte l) :: is → (l = 0 ∨ 62 < l.toNat) →
    ∃ u, steps 2 s = .next u ∧
      u = { s with
        inputs := is
        log := s.log ++ [.rx (.byte 0xEA)] ++ (if s.mirrorEn then [.mir 0xEA] else []) ++ [.rx (.byte l)]
          ++ (if s.mirrorEn then [.mir l] else []) ++ reported s.verb (if l = 0 then .empty else .oversize l) }

/-! ### The FRAME rows -/

/-- R180, R181: battery data of 8 bytes. The byte at offset 6 and the integrity byte have no effect. -/
def Obligations.BatteryRecord : Prop :=
  ∀ (s : State) (v1 v0 c1 c0 m1 m0 skipped p x : Byte), ∃ v c m : BitVec 16,
    v.toNat = v1.toNat * 256 + v0.toNat ∧ c.toNat = c1.toNat * 256 + c0.toNat ∧ m.toNat = m1.toNat * 256 + m0.toNat ∧
    exec (.battery [v1, v0, c1, c0, m1, m0, skipped, p, x]) s = .next (s.addLog (reported s.verb (.battery v c m p))) ∧
    (Event.battery v c m p).batteryStats =
      some ⟨((v1.toNat * 256 + v0.toNat : Nat) : ℚ) / 10, ((c1.toNat * 256 + c0.toNat : Nat) : ℚ) / 10,
        m1.toNat * 256 + m0.toNat, p.toNat⟩

/-- R191 to R198: link-statistics data of 10 bytes. -/
def Obligations.LinkStatsRecord : Prop :=
  ∀ (s : State) (d0 d1 d2 d3 d4 d5 d6 d7 d8 d9 x : Byte),
    ∃ (r1 r2 rr : BitVec 9) (snr rsn : Byte) (pw : BitVec 11),
      r1.toInt = -(d0.toNat : Int) ∧ r2.toInt = -(d1.toNat : Int) ∧ rr.toInt = -(d7.toNat : Int) ∧
      snr.toInt = (if d3.toNat < 128 then (d3.toNat : Int) else d3.toNat - 256) ∧
      rsn.toInt = (if d9.toNat < 128 then (d9.toNat : Int) else d9.toNat - 256) ∧
      pw.toNat = (if d6.toNat ≤ 8 then [0, 10, 25, 100, 500, 1000, 2000, 250, 50].getD d6.toNat 0 else d6.toNat) ∧
      exec (.linkStats [d0, d1, d2, d3, d4, d5, d6, d7, d8, d9, x]) s =
        .next (s.addLog (reported s.verb
          (.linkStats r1 r2 d2 snr d4 d5 pw rr d8 rsn (if d4.toNat = 1 then r2 else r1))))

/-- R211: attitude data of 6 bytes. A field's value is its hexadecimal spelling read as a decimal
numeral; if a digit of any field is above 9 there is no record, and the diagnostic names the fields. -/
def Obligations.AttitudeRecordOrDiagnostic : Prop :=
  ∀ (s : State) (p1 p0 r1 r0 y1 y0 x : Byte),
    let digits (h l : Byte) : List Nat := Nat.digits 16 (h.toNat * 256 + l.toNat)
    let decimal (h l : Byte) : Prop := ∀ d ∈ digits h l, d ≤ 9
    (decimal p1 p0 ∧ decimal r1 r0 ∧ decimal y1 y0 → ∃ p r y : BitVec 14,
      p.toNat = Nat.ofDigits 10 (digits p1 p0) ∧ r.toNat = Nat.ofDigits 10 (digits r1 r0) ∧
      y.toNat = Nat.ofDigits 10 (digits y1 y0) ∧
      exec (.attitude [p1, p0, r1, r0, y1, y0, x]) s = .next (s.addLog (reported s.verb (.attitude p r y)))) ∧
    (¬ (decimal p1 p0 ∧ decimal r1 r0 ∧ decimal y1 y0) → ∃ f : BitVec 3,
      (f.getLsbD 2 = true ↔ ¬ decimal p1 p0) ∧ (f.getLsbD 1 = true ↔ ¬ decimal r1 r0) ∧
      (f.getLsbD 0 = true ↔ ¬ decimal y1 y0) ∧
      exec (.attitude [p1, p0, r1, r0, y1, y0, x]) s = .next (s.addLog (reported s.verb (.attNondec f))))

/-- R213, and R215, which the spec marks as derived: an attitude record never holds a reading above 9999, that
is an angle of one radian or more, and never a negative one. -/
def Obligations.AttitudeStaysBelowOneRadian : Prop :=
  ∀ (s t : State) (tail : List Byte) (p r y : BitVec 14), exec (.attitude tail) s = .next t →
    Transaction.rep (.full (.attitude p r y)) ∈ t.log.drop s.log.length →
    ∀ n ∈ [p, r, y], n.toNat ≤ 9999 ∧ 0 ≤ radians n ∧ radians n < 1 ∧ 0 ≤ degrees n

/-- R226: radio-sync data of 11 bytes; the byte at offset 1 is not examined. -/
def Obligations.RadioSyncRecordOrSilence : Prop :=
  ∀ (s : State) (d0 d1 d2 a3 a2 a1 a0 b3 b2 b1 b0 x : Byte),
    let tail := [d0, d1, d2, a3, a2, a1, a0, b3, b2, b1, b0, x]
    (d0 = 0xEA ∧ d2 = 0x10 → ∃ r g : BitVec 32,
      r.toNat = a3.toNat * 2 ^ 24 + a2.toNat * 2 ^ 16 + a1.toNat * 2 ^ 8 + a0.toNat ∧
      g.toNat = b3.toNat * 2 ^ 24 + b2.toNat * 2 ^ 16 + b1.toNat * 2 ^ 8 + b0.toNat ∧
      exec (.radioSync tail) s = .next (s.addLog (reported s.verb (.radioSync r g)))) ∧
    (¬ (d0 = 0xEA ∧ d2 = 0x10) → exec (.radioSync tail) s = .next s)

/-- R236, R237: a flight-mode frame of any length gives its printable bytes in order; the integrity
byte is no part of them. -/
def Obligations.FlightModeText : Prop :=
  ∀ (s : State) (tail : List Byte), (Instr.flightMode tail).WellFormed → ∃ n : BitVec 6,
    n.toNat = (tail.dropLast.filter fun c => 0x20 ≤ c.toNat && c.toNat ≤ 0x7E).length ∧ n.toNat ≤ 60 ∧
    exec (.flightMode tail) s = .next (s.addLog (reported s.verb
      (.flightMode n (tail.dropLast.filter fun c => 0x20 ≤ c.toNat && c.toNat ≤ 0x7E))))

/-- R246, R247: GPS and vario frames are recognised whatever their length, or, if `GV_LEN_CHECK`, only at data
lengths 16 and 3. For both values of the parameter. -/
def Obligations.GpsAndVarioSeen : Prop :=
  ∀ (s : State) (tail : List Byte), tail.length + 1 ≤ 62 → ∃ d : BitVec 6, d.toNat = tail.dropLast.length ∧
    exec (.gps tail) s = .next (s.addLog (reported s.verb
      (if s.gvLenCheck = true ∧ tail.dropLast.length ≠ 16 then .lenMismatch 2 d 16 else .gpsSeen))) ∧
    exec (.vario tail) s = .next (s.addLog (reported s.verb
      (if s.gvLenCheck = true ∧ tail.dropLast.length ≠ 3 then .lenMismatch 7 d 3 else .varioSeen)))

/-- R248: an unknown type is reported with its code, whatever its data. -/
def Obligations.UnknownTypeReported : Prop :=
  ∀ (s : State) (t : Byte) (tail : List Byte), t ∉ knownTypes →
    route t tail = .unknown t tail ∧
    exec (.unknown t tail) s = .next (s.addLog (reported s.verb (.unknown t)))

/-- R155: a frame of a fixed-length type whose data has another length gives the mismatch and nothing
else. -/
def Obligations.LengthMismatchDropsTheFrame : Prop :=
  ∀ (s : State) (tail : List Byte), tail.length + 1 ≤ 62 → ∃ d : BitVec 6, d.toNat = tail.dropLast.length ∧
    (tail.dropLast.length ≠ 8 →
      exec (.battery tail) s = .next (s.addLog (reported s.verb (.lenMismatch 8 d 8)))) ∧
    (tail.dropLast.length ≠ 10 →
      exec (.linkStats tail) s = .next (s.addLog (reported s.verb (.lenMismatch 20 d 10)))) ∧
    (tail.dropLast.length ≠ 6 →
      exec (.attitude tail) s = .next (s.addLog (reported s.verb (.lenMismatch 30 d 6)))) ∧
    (tail.dropLast.length ≠ 11 →
      exec (.radioSync tail) s = .next (s.addLog (reported s.verb (.lenMismatch 58 d 11))))

/-- R150, and R161, which the spec marks as derived: a dispatch writes no register and no buffer byte; it
reports RAW and then at most one event. -/
def Obligations.DispatchReportsRawAndAtMostOneEvent : Prop :=
  ∀ s t : State, 1 ≤ s.len.toNat → dispatch s = .next t → ∃ (payload : List Byte) (es : List Event),
    loadBytes s 0 s.len.toNat = .ok payload ∧ es.length ≤ 1 ∧
    (∀ e ∈ es, e.kind ∉ [EventKind.noise, .oversize, .empty, .raw]) ∧
    t = s.addLog (reported s.verb (.raw s.len payload) ++ es.flatMap (reported s.verb))

/-! ### Loads and fields -/

/-- R52, R53: a load of 1, 2 or 4 bytes is the big-endian integer of the bytes at its offsets. -/
def Obligations.LoadsAreBigEndian : Prop :=
  ∀ (s : State) (i : Nat) (b0 b1 b2 b3 : Byte), load s i = .ok b0 → load s (i + 1) = .ok b1 →
    load s (i + 2) = .ok b2 → load s (i + 3) = .ok b3 →
    memRead s i 1 = .ok b0.toNat ∧ memRead s i 2 = .ok (b0.toNat * 256 + b1.toNat) ∧
    memRead s i 4 = .ok (b0.toNat * 2 ^ 24 + b1.toNat * 2 ^ 16 + b2.toNat * 2 ^ 8 + b3.toNat)

/-- R91: the fields of the data are the loads of the buffer at payload offset `i + 1`. -/
def Obligations.FieldsAreBufferLoads : Prop :=
  ∀ (s : State) (t : Byte) (tail : List Byte) (i : Nat), loadBytes s 0 s.len.toNat = .ok (t :: tail) →
    (i < (dataOf tail).length → memRead s (i + 1) 1 = .ok (byteAt (dataOf tail) i).toNat) ∧
    (i + 1 < (dataOf tail).length → memRead s (i + 1) 2 = .ok (be16 (dataOf tail) i)) ∧
    (i + 3 < (dataOf tail).length → memRead s (i + 1) 4 = .ok (be32 (dataOf tail) i))

/-! ### What each register is written by -/

/-- R22, R51, and R23, which the spec marks as derived: while the core consumes a token, `LEN` changes only in
RDLEN and for a byte 1 to 62, `CNT` only in RDLEN or RDPAY, and a buffer byte only in RDPAY and at offset `CNT`.
-/
def Obligations.WorkingSetWriters : Prop :=
  ∀ (s u : State) (t : Token) (is : List Input), rxReady s = true → s.inputs = .token t :: is → step s = .next u →
    (u.len ≠ s.len → s.st = .rdlen ∧ ∃ b : Byte, t = .byte b ∧ 1 ≤ b.toNat ∧ b.toNat ≤ 62 ∧ u.len.toNat = b.toNat) ∧
    (u.cnt ≠ s.cnt → s.st = .rdlen ∨ s.st = .rdpay) ∧
    (∀ j, load u j ≠ load s j → s.st = .rdpay ∧ j = s.cnt.toNat ∧ ∃ b : Byte, t = .byte b ∧ load u j = .ok b)

/-- R26, R27, R347: `VERB` and `MIRROR_EN` change only at a release of `rst`, and then to the values of the
pins. How a drive of the pins stands among the inputs is the model's choice (log 4), and so is that the two keep
their values when `rst` is asserted and while it is held, which the spec does not give (log 11). -/
def Obligations.ConfigurationChangesOnlyAtReset : Prop :=
  ∀ s u : State, step s = .next u →
    (u.verb = s.verb ∧ u.mirrorEn = s.mirrorEn) ∨
    (s.rst = true ∧ u.rst = false ∧ ∃ is, takePins s.inputs = some ((false, u.verb, u.mirrorEn), is))

/-! ### Reset -/

/-- R42, R330, R331: asserting `rst` in any state gives the reset values, discards the partial frame and undoes
no transaction; while it is asserted no token is consumed. The model's choices in it: that the buffer, which the
spec leaves unspecified, then holds no value (log 3), the order of the inputs (log 4), and that `VERB` and
`MIRROR_EN` keep their values when `rst` is asserted and while it is held, which the spec does not give (log
11). -/
def Obligations.AssertedResetHoldsTheResetValues : Prop :=
  (∀ (s : State) (v : BitVec 2) (m : Bool) (is : List Input), s.inputs = .pins true v m :: is →
    ∃ u, step s = .next u ∧ u = { s with
        st := .seek, len := 0, cnt := 0, buf := [], eosAt := .seek, rst := true, inputs := is } ∧
      rxReady u = false ∧ stOut u = 0 ∧ eosAtOut u = 0) ∧
  (∀ (s : State) (n : Nat), s.rst = true → (∀ r v m, Input.pins r v m ∉ s.inputs) → steps n s = .next s)

/-- R26, R27, R42, R330, R335: releasing `rst` samples the configuration pins and starts a run; driving them with
`rst` released is ignored. The mark `.run` in the log is the model's own (log 5). -/
def Obligations.ReleasedResetSamplesThePins : Prop :=
  (∀ (s : State) (v : BitVec 2) (m : Bool) (is : List Input), s.rst = true → s.inputs = .pins false v m :: is →
    step s = .next { s with verb := v, mirrorEn := m, rst := false, inputs := is, log := s.log ++ [.run v m] }) ∧
  (∀ (s : State) (v : BitVec 2) (m : Bool) (is : List Input), s.rst = false → s.inputs = .pins false v m :: is →
    step s = .next { s with inputs := is })

/-- R331: a reset in the middle of a step. Whatever the sink saw, the log is the one of the whole step cut off
after the accepted transactions, or after one more; nothing transferred before is undone; the core holds the
reset values. It holds for every value of the free value `Config.withdrawnSeen`. The model's choices in it: that
a reset inside a step is an input of its own (log 9), and that `VERB` keeps its value when `rst` is asserted,
which the spec does not give (log 11). -/
def Obligations.ResetInsideAStepCutsItsTransactions : Prop :=
  ∀ (s v : State) (t : Token) (n : Nat) (is : List Input), rxReady s = true → s.inputs = .cut t n :: is →
    step { s with inputs := .token t :: is } = .next v →
    ∃ u, step s = .next u ∧ s.log ++ [.rx t] <+: u.log ∧ u.log <+: v.log ∧
      (u.log = v.log.take (s.log.length + 1 + n) ∨ u.log = v.log.take (s.log.length + 1 + n + 1)) ∧
      u.st = .seek ∧ u.len = 0 ∧ u.cnt = 0 ∧ u.eosAt = .seek ∧ u.rst = true ∧ u.verb = s.verb ∧ u.inputs = is

/-! ### Reports and mirror -/

/-- R260, R262, with the minimum levels of R259 (those of OVERSIZE, EMPTY and ATT_NONDEC are, in its words, the
"spec's choice"): what is transferred of an event at each level, and that a report without detail drives
every field bus to 0. -/
def Obligations.ReportGatingAndDetail : Prop :=
  (∀ (v : BitVec 2) (e : Event), e.kind ∉ [EventKind.raw, .lenMismatch, .attNondec] →
    reported v e = if v.toNat = 0 then [] else if v.toNat = 1 then [.rep (.kindOnly e.kind)] else [.rep (.full e)]) ∧
  (∀ (v : BitVec 2) (e : Event), e.kind ∈ [EventKind.raw, .lenMismatch, .attNondec] →
    reported v e = if v.toNat = 3 then [.rep (.full e)] else []) ∧
  (∀ k : EventKind, (Report.kindOnly k).signals = { rep_kind := kindCode k }) ∧
  (∀ e : Event, (Report.full e).signals.rep_kind = kindCode e.kind ∧ (Report.full e).signals.rep_detail = true)

/-- R256 ("The codes are the spec's own"): the codes of two kinds differ, and none is 0. -/
def Obligations.KindCodesAreDistinct : Prop :=
  ∀ k l : EventKind, kindCode k ≠ 0 ∧ (kindCode k = kindCode l → k = l)

/-- R65, R268, and R265, which the spec marks as derived: the transactions of a step are the RX transaction,
then the byte just consumed on the mirror, if one is attached and the byte is no noise byte, then the reports.
-/
def Obligations.OrderWithinAStep : Prop :=
  ∀ (s u : State) (t : Token) (is : List Input), rxReady s = true → s.inputs = .token t :: is → step s = .next u →
    ∃ rs : List Report, u.log = s.log ++ [.rx t] ++ (match t with
      | .eos => []
      | .byte b => if s.mirrorEn = true ∧ ¬ (s.st = .seek ∧ b ≠ 0xEA) then [.mir b] else []) ++ rs.map .rep

/-- R264, and R138 and R267, which the spec marks as derived: what the mirror receives is a function of the
input alone: the bytes of every frame attempt, the noise bytes removed. -/
def Obligations.MirrorIsTheFrameAttempts : Prop :=
  ∀ (s : State) (ts : List Token), Inv s → rxReady s = true → s.st = .seek → s.inputs = ts.map .token →
    ∃ u, steps ts.length s = .next u ∧
      mirBytes u.log = mirBytes s.log ++ (if s.mirrorEn then attemptBytes .seek ts else [])

/-- R267 and R348, which the spec marks as derived: the mirror sequence fed back as input gives the same mirror
sequence and the same reports other than NOISE. -/
def Obligations.MirrorReplaysTheAttempts : Prop :=
  ∀ (s u : State) (bs replay : List Byte), Inv s → rxReady s = true → s.st = .seek → s.mirrorEn = true →
    s.inputs = bytesIn bs → steps bs.length s = .next u → mirBytes u.log = mirBytes s.log ++ replay →
    ∃ w, steps replay.length { s with inputs := bytesIn replay } = .next w ∧
      mirBytes w.log = mirBytes u.log ∧
      reports w.log = reports s.log ++
        ((reports u.log).drop (reports s.log).length).filter fun r => reportKind r != .noise

/-- R262, and R267 and R269, which the spec marks as derived: the reporting level changes nothing but the
reports: two machines that differ in `VERB` alone stay equal but for `VERB` and the reports, and send the same
mirror bytes, over any run. -/
def Obligations.LevelAffectsReportsOnly : Prop :=
  ∀ (n : Nat) (s t s' : State), SameButReports s t → mirBytes s.log = mirBytes t.log → steps n s = .next s' →
    ∃ t', steps n t = .next t' ∧ SameButReports s' t' ∧ mirBytes s'.log = mirBytes t'.log

/-- R266: the mirror changes nothing but the mirror: two machines that differ in `MIRROR_EN` alone stay equal
but for it and for the mirror bytes, and report the same, over any run that `rst` does not cut inside a step. -/
def Obligations.MirrorAffectsMirrorOnly : Prop :=
  ∀ (n : Nat) (s t s' : State), SameButMirror s t → reports s.log = reports t.log →
    (∀ x k, Input.cut x k ∉ s.inputs) → steps n s = .next s' →
    ∃ t', steps n t = .next t' ∧ SameButMirror s' t' ∧ reports s'.log = reports t'.log

/-- R350, and R36, which the spec marks as derived: what `LEN`, `CNT` and `BUF` hold in SEEK is never seen: two
machines in SEEK that differ in them alone make the same transactions and go through the same scanner states,
over any run. -/
def Obligations.DeadValuesAreNeverSeen : Prop :=
  ∀ (n : Nat) (s t s' : State), Inv s → Inv t → s.st = .seek → SameButDead s t → steps n s = .next s' →
    ∃ t', steps n t = .next t' ∧ t'.log = s'.log ∧ t'.st = s'.st ∧ t'.eosAt = s'.eosAt
end

