-- ==== Sys2Proof/Laws/State.lean ====
section
/-! SUPPORT. One lemma per field per update of State, so that no proof unfolds an update. -/

namespace Sys2Proof.Machine

variable (s : State)

/-! ### `addLog` -/

@[simp] theorem addLog_st (ts : List Transaction) : (s.addLog ts).st = s.st := rfl
@[simp] theorem addLog_len (ts : List Transaction) : (s.addLog ts).len = s.len := rfl
@[simp] theorem addLog_cnt (ts : List Transaction) : (s.addLog ts).cnt = s.cnt := rfl
@[simp] theorem addLog_buf (ts : List Transaction) : (s.addLog ts).buf = s.buf := rfl
@[simp] theorem addLog_eosAt (ts : List Transaction) : (s.addLog ts).eosAt = s.eosAt := rfl
@[simp] theorem addLog_verb (ts : List Transaction) : (s.addLog ts).verb = s.verb := rfl
@[simp] theorem addLog_mirrorEn (ts : List Transaction) : (s.addLog ts).mirrorEn = s.mirrorEn := rfl
@[simp] theorem addLog_rst (ts : List Transaction) : (s.addLog ts).rst = s.rst := rfl
@[simp] theorem addLog_gvLenCheck (ts : List Transaction) : (s.addLog ts).gvLenCheck = s.gvLenCheck := rfl
@[simp] theorem addLog_inputs (ts : List Transaction) : (s.addLog ts).inputs = s.inputs := rfl
@[simp] theorem addLog_log (ts : List Transaction) : (s.addLog ts).log = s.log ++ ts := rfl
@[simp] theorem addLog_freeIdx (ts : List Transaction) : (s.addLog ts).freeIdx = s.freeIdx := rfl

/-! ### `setSt` -/

@[simp] theorem setSt_st (x : ScanState) : (setSt x s).st = x := rfl
@[simp] theorem setSt_len (x : ScanState) : (setSt x s).len = s.len := rfl
@[simp] theorem setSt_cnt (x : ScanState) : (setSt x s).cnt = s.cnt := rfl
@[simp] theorem setSt_buf (x : ScanState) : (setSt x s).buf = s.buf := rfl
@[simp] theorem setSt_eosAt (x : ScanState) : (setSt x s).eosAt = s.eosAt := rfl
@[simp] theorem setSt_verb (x : ScanState) : (setSt x s).verb = s.verb := rfl
@[simp] theorem setSt_mirrorEn (x : ScanState) : (setSt x s).mirrorEn = s.mirrorEn := rfl
@[simp] theorem setSt_rst (x : ScanState) : (setSt x s).rst = s.rst := rfl
@[simp] theorem setSt_gvLenCheck (x : ScanState) : (setSt x s).gvLenCheck = s.gvLenCheck := rfl
@[simp] theorem setSt_inputs (x : ScanState) : (setSt x s).inputs = s.inputs := rfl
@[simp] theorem setSt_log (x : ScanState) : (setSt x s).log = s.log := rfl
@[simp] theorem setSt_freeIdx (x : ScanState) : (setSt x s).freeIdx = s.freeIdx := rfl

/-! ### `setLen` -/

@[simp] theorem setLen_st (x : BitVec 6) : (setLen x s).st = s.st := rfl
@[simp] theorem setLen_len (x : BitVec 6) : (setLen x s).len = x := rfl
@[simp] theorem setLen_cnt (x : BitVec 6) : (setLen x s).cnt = s.cnt := rfl
@[simp] theorem setLen_buf (x : BitVec 6) : (setLen x s).buf = s.buf := rfl
@[simp] theorem setLen_eosAt (x : BitVec 6) : (setLen x s).eosAt = s.eosAt := rfl
@[simp] theorem setLen_verb (x : BitVec 6) : (setLen x s).verb = s.verb := rfl
@[simp] theorem setLen_mirrorEn (x : BitVec 6) : (setLen x s).mirrorEn = s.mirrorEn := rfl
@[simp] theorem setLen_rst (x : BitVec 6) : (setLen x s).rst = s.rst := rfl
@[simp] theorem setLen_gvLenCheck (x : BitVec 6) : (setLen x s).gvLenCheck = s.gvLenCheck := rfl
@[simp] theorem setLen_inputs (x : BitVec 6) : (setLen x s).inputs = s.inputs := rfl
@[simp] theorem setLen_log (x : BitVec 6) : (setLen x s).log = s.log := rfl
@[simp] theorem setLen_freeIdx (x : BitVec 6) : (setLen x s).freeIdx = s.freeIdx := rfl

/-! ### `setCnt` -/

@[simp] theorem setCnt_st (x : BitVec 6) : (setCnt x s).st = s.st := rfl
@[simp] theorem setCnt_len (x : BitVec 6) : (setCnt x s).len = s.len := rfl
@[simp] theorem setCnt_cnt (x : BitVec 6) : (setCnt x s).cnt = x := rfl
@[simp] theorem setCnt_buf (x : BitVec 6) : (setCnt x s).buf = s.buf := rfl
@[simp] theorem setCnt_eosAt (x : BitVec 6) : (setCnt x s).eosAt = s.eosAt := rfl
@[simp] theorem setCnt_verb (x : BitVec 6) : (setCnt x s).verb = s.verb := rfl
@[simp] theorem setCnt_mirrorEn (x : BitVec 6) : (setCnt x s).mirrorEn = s.mirrorEn := rfl
@[simp] theorem setCnt_rst (x : BitVec 6) : (setCnt x s).rst = s.rst := rfl
@[simp] theorem setCnt_gvLenCheck (x : BitVec 6) : (setCnt x s).gvLenCheck = s.gvLenCheck := rfl
@[simp] theorem setCnt_inputs (x : BitVec 6) : (setCnt x s).inputs = s.inputs := rfl
@[simp] theorem setCnt_log (x : BitVec 6) : (setCnt x s).log = s.log := rfl
@[simp] theorem setCnt_freeIdx (x : BitVec 6) : (setCnt x s).freeIdx = s.freeIdx := rfl

/-! ### `setEosAt` -/

@[simp] theorem setEosAt_st (x : ScanState) : (setEosAt x s).st = s.st := rfl
@[simp] theorem setEosAt_len (x : ScanState) : (setEosAt x s).len = s.len := rfl
@[simp] theorem setEosAt_cnt (x : ScanState) : (setEosAt x s).cnt = s.cnt := rfl
@[simp] theorem setEosAt_buf (x : ScanState) : (setEosAt x s).buf = s.buf := rfl
@[simp] theorem setEosAt_eosAt (x : ScanState) : (setEosAt x s).eosAt = x := rfl
@[simp] theorem setEosAt_verb (x : ScanState) : (setEosAt x s).verb = s.verb := rfl
@[simp] theorem setEosAt_mirrorEn (x : ScanState) : (setEosAt x s).mirrorEn = s.mirrorEn := rfl
@[simp] theorem setEosAt_rst (x : ScanState) : (setEosAt x s).rst = s.rst := rfl
@[simp] theorem setEosAt_gvLenCheck (x : ScanState) : (setEosAt x s).gvLenCheck = s.gvLenCheck := rfl
@[simp] theorem setEosAt_inputs (x : ScanState) : (setEosAt x s).inputs = s.inputs := rfl
@[simp] theorem setEosAt_log (x : ScanState) : (setEosAt x s).log = s.log := rfl
@[simp] theorem setEosAt_freeIdx (x : ScanState) : (setEosAt x s).freeIdx = s.freeIdx := rfl

/-! ### `setInputs` -/

@[simp] theorem setInputs_st (x : List Input) : (setInputs x s).st = s.st := rfl
@[simp] theorem setInputs_len (x : List Input) : (setInputs x s).len = s.len := rfl
@[simp] theorem setInputs_cnt (x : List Input) : (setInputs x s).cnt = s.cnt := rfl
@[simp] theorem setInputs_buf (x : List Input) : (setInputs x s).buf = s.buf := rfl
@[simp] theorem setInputs_eosAt (x : List Input) : (setInputs x s).eosAt = s.eosAt := rfl
@[simp] theorem setInputs_verb (x : List Input) : (setInputs x s).verb = s.verb := rfl
@[simp] theorem setInputs_mirrorEn (x : List Input) : (setInputs x s).mirrorEn = s.mirrorEn := rfl
@[simp] theorem setInputs_rst (x : List Input) : (setInputs x s).rst = s.rst := rfl
@[simp] theorem setInputs_gvLenCheck (x : List Input) : (setInputs x s).gvLenCheck = s.gvLenCheck := rfl
@[simp] theorem setInputs_inputs (x : List Input) : (setInputs x s).inputs = x := rfl
@[simp] theorem setInputs_log (x : List Input) : (setInputs x s).log = s.log := rfl
@[simp] theorem setInputs_freeIdx (x : List Input) : (setInputs x s).freeIdx = s.freeIdx := rfl

/-! ### `accept` -/

@[simp] theorem accept_st (t : Token) : (accept t s).st = s.st := rfl
@[simp] theorem accept_len (t : Token) : (accept t s).len = s.len := rfl
@[simp] theorem accept_cnt (t : Token) : (accept t s).cnt = s.cnt := rfl
@[simp] theorem accept_buf (t : Token) : (accept t s).buf = s.buf := rfl
@[simp] theorem accept_eosAt (t : Token) : (accept t s).eosAt = s.eosAt := rfl
@[simp] theorem accept_verb (t : Token) : (accept t s).verb = s.verb := rfl
@[simp] theorem accept_mirrorEn (t : Token) : (accept t s).mirrorEn = s.mirrorEn := rfl
@[simp] theorem accept_rst (t : Token) : (accept t s).rst = s.rst := rfl
@[simp] theorem accept_gvLenCheck (t : Token) : (accept t s).gvLenCheck = s.gvLenCheck := rfl
@[simp] theorem accept_inputs (t : Token) : (accept t s).inputs = s.inputs := rfl
@[simp] theorem accept_log (t : Token) : (accept t s).log = s.log ++ [.rx t] := rfl
@[simp] theorem accept_freeIdx (t : Token) : (accept t s).freeIdx = s.freeIdx := rfl

/-! ### `mirror` -/

@[simp] theorem mirror_st (b : Byte) : (mirror b s).st = s.st := rfl
@[simp] theorem mirror_len (b : Byte) : (mirror b s).len = s.len := rfl
@[simp] theorem mirror_cnt (b : Byte) : (mirror b s).cnt = s.cnt := rfl
@[simp] theorem mirror_buf (b : Byte) : (mirror b s).buf = s.buf := rfl
@[simp] theorem mirror_eosAt (b : Byte) : (mirror b s).eosAt = s.eosAt := rfl
@[simp] theorem mirror_verb (b : Byte) : (mirror b s).verb = s.verb := rfl
@[simp] theorem mirror_mirrorEn (b : Byte) : (mirror b s).mirrorEn = s.mirrorEn := rfl
@[simp] theorem mirror_rst (b : Byte) : (mirror b s).rst = s.rst := rfl
@[simp] theorem mirror_gvLenCheck (b : Byte) : (mirror b s).gvLenCheck = s.gvLenCheck := rfl
@[simp] theorem mirror_inputs (b : Byte) : (mirror b s).inputs = s.inputs := rfl
@[simp] theorem mirror_log (b : Byte) : (mirror b s).log = s.log ++ mirrored s.mirrorEn b := rfl
@[simp] theorem mirror_freeIdx (b : Byte) : (mirror b s).freeIdx = s.freeIdx := rfl

/-! ### `raise` -/

@[simp] theorem raise_st (e : Event) : (raise e s).st = s.st := rfl
@[simp] theorem raise_len (e : Event) : (raise e s).len = s.len := rfl
@[simp] theorem raise_cnt (e : Event) : (raise e s).cnt = s.cnt := rfl
@[simp] theorem raise_buf (e : Event) : (raise e s).buf = s.buf := rfl
@[simp] theorem raise_eosAt (e : Event) : (raise e s).eosAt = s.eosAt := rfl
@[simp] theorem raise_verb (e : Event) : (raise e s).verb = s.verb := rfl
@[simp] theorem raise_mirrorEn (e : Event) : (raise e s).mirrorEn = s.mirrorEn := rfl
@[simp] theorem raise_rst (e : Event) : (raise e s).rst = s.rst := rfl
@[simp] theorem raise_gvLenCheck (e : Event) : (raise e s).gvLenCheck = s.gvLenCheck := rfl
@[simp] theorem raise_inputs (e : Event) : (raise e s).inputs = s.inputs := rfl
@[simp] theorem raise_log (e : Event) : (raise e s).log = s.log ++ reported s.verb e := rfl
@[simp] theorem raise_freeIdx (e : Event) : (raise e s).freeIdx = s.freeIdx := rfl

/-! ### `endOfStream` -/

@[simp] theorem endOfStream_st (x : ScanState) : (endOfStream x s).st = .done := rfl
@[simp] theorem endOfStream_len (x : ScanState) : (endOfStream x s).len = s.len := rfl
@[simp] theorem endOfStream_cnt (x : ScanState) : (endOfStream x s).cnt = s.cnt := rfl
@[simp] theorem endOfStream_buf (x : ScanState) : (endOfStream x s).buf = s.buf := rfl
@[simp] theorem endOfStream_eosAt (x : ScanState) : (endOfStream x s).eosAt = x := rfl
@[simp] theorem endOfStream_verb (x : ScanState) : (endOfStream x s).verb = s.verb := rfl
@[simp] theorem endOfStream_mirrorEn (x : ScanState) : (endOfStream x s).mirrorEn = s.mirrorEn := rfl
@[simp] theorem endOfStream_rst (x : ScanState) : (endOfStream x s).rst = s.rst := rfl
@[simp] theorem endOfStream_gvLenCheck (x : ScanState) : (endOfStream x s).gvLenCheck = s.gvLenCheck := rfl
@[simp] theorem endOfStream_inputs (x : ScanState) : (endOfStream x s).inputs = s.inputs := rfl
@[simp] theorem endOfStream_log (x : ScanState) : (endOfStream x s).log = s.log := rfl
@[simp] theorem endOfStream_freeIdx (x : ScanState) : (endOfStream x s).freeIdx = s.freeIdx := rfl

/-! ### `enterReset` -/

@[simp] theorem enterReset_st : (enterReset s).st = .seek := rfl
@[simp] theorem enterReset_len : (enterReset s).len = 0 := rfl
@[simp] theorem enterReset_cnt : (enterReset s).cnt = 0 := rfl
@[simp] theorem enterReset_buf : (enterReset s).buf = [] := rfl
@[simp] theorem enterReset_eosAt : (enterReset s).eosAt = .seek := rfl
@[simp] theorem enterReset_verb : (enterReset s).verb = s.verb := rfl
@[simp] theorem enterReset_mirrorEn : (enterReset s).mirrorEn = s.mirrorEn := rfl
@[simp] theorem enterReset_rst : (enterReset s).rst = true := rfl
@[simp] theorem enterReset_gvLenCheck : (enterReset s).gvLenCheck = s.gvLenCheck := rfl
@[simp] theorem enterReset_inputs : (enterReset s).inputs = s.inputs := rfl
@[simp] theorem enterReset_log : (enterReset s).log = s.log := rfl
@[simp] theorem enterReset_freeIdx : (enterReset s).freeIdx = s.freeIdx := rfl

/-! ### `releaseReset` -/

@[simp] theorem releaseReset_st (v : BitVec 2) (m : Bool) : (releaseReset v m s).st = s.st := rfl
@[simp] theorem releaseReset_len (v : BitVec 2) (m : Bool) : (releaseReset v m s).len = s.len := rfl
@[simp] theorem releaseReset_cnt (v : BitVec 2) (m : Bool) : (releaseReset v m s).cnt = s.cnt := rfl
@[simp] theorem releaseReset_buf (v : BitVec 2) (m : Bool) : (releaseReset v m s).buf = s.buf := rfl
@[simp] theorem releaseReset_eosAt (v : BitVec 2) (m : Bool) : (releaseReset v m s).eosAt = s.eosAt := rfl
@[simp] theorem releaseReset_verb (v : BitVec 2) (m : Bool) : (releaseReset v m s).verb = v := rfl
@[simp] theorem releaseReset_mirrorEn (v : BitVec 2) (m : Bool) : (releaseReset v m s).mirrorEn = m := rfl
@[simp] theorem releaseReset_rst (v : BitVec 2) (m : Bool) : (releaseReset v m s).rst = false := rfl
@[simp] theorem releaseReset_gvLenCheck (v : BitVec 2) (m : Bool) : (releaseReset v m s).gvLenCheck = s.gvLenCheck := rfl
@[simp] theorem releaseReset_inputs (v : BitVec 2) (m : Bool) : (releaseReset v m s).inputs = s.inputs := rfl
@[simp] theorem releaseReset_log (v : BitVec 2) (m : Bool) : (releaseReset v m s).log = s.log ++ [.run v m] := rfl
@[simp] theorem releaseReset_freeIdx (v : BitVec 2) (m : Bool) : (releaseReset v m s).freeIdx = s.freeIdx := rfl

end Sys2Proof.Machine
end

