-- ==== Sys2Proof/Laws/Memory.lean ====
section
/-! SUPPORT. The payload buffer: what a write leaves to be read, and that every operation keeps the
canonical form. -/

namespace Sys2Proof.Machine

theorem Memory.read_write_same (m : Memory) (i : Nat) (b : Byte) : (m.write i b).read i = some b := by
  induction m with
  | nil => simp [Memory.write, Memory.read]
  | cons c m ih =>
    unfold Memory.write
    split
    · simp [Memory.read]
    · split
      · simp [Memory.read]
      · rename_i h
        simp [Memory.read, ih, Ne.symm h]

theorem Memory.read_write_other (m : Memory) {i j : Nat} (b : Byte) (h : j ≠ i) :
    (m.write i b).read j = m.read j := by
  induction m with
  | nil => simp [Memory.write, Memory.read, Ne.symm h]
  | cons c m ih =>
    unfold Memory.write
    split
    · simp [Memory.read, Ne.symm h]
    · split
      · rename_i hc
        subst hc
        simp [Memory.read, Ne.symm h]
      · simp [Memory.read, ih]

theorem Memory.mem_write {m : Memory} {i : Nat} {b : Byte} {c : Host.Cell} (h : c ∈ m.write i b) :
    c = (i, b) ∨ c ∈ m := by
  induction m with
  | nil => simpa [Memory.write] using h
  | cons d m ih =>
    unfold Memory.write at h
    split at h
    · simpa using h
    · split at h
      · rcases List.mem_cons.mp h with h | h
        · exact .inl h
        · exact .inr (List.mem_cons_of_mem _ h)
      · rcases List.mem_cons.mp h with h | h
        · exact .inr (h ▸ List.mem_cons_self)
        · exact (ih h).imp id (List.mem_cons_of_mem _)

theorem Memory.write_rising {m : Memory} (i : Nat) (b : Byte) (h : (m.map Prod.fst).Pairwise (· < ·)) :
    ((m.write i b).map Prod.fst).Pairwise (· < ·) := by
  induction m with
  | nil => simp [Memory.write]
  | cons c m ih =>
    have hc : ∀ d ∈ m, c.1 < d.1 := by
      simpa using (List.pairwise_cons.mp h).1
    have hm := (List.pairwise_cons.mp h).2
    unfold Memory.write
    split
    · rename_i hi
      refine List.pairwise_cons.mpr ⟨?_, h⟩
      simp only [List.map_cons, List.mem_cons, List.mem_map, forall_eq_or_imp]
      refine ⟨hi, ?_⟩
      rintro _ ⟨d, hd, rfl⟩
      exact Nat.lt_trans hi (hc d hd)
    · split
      · rename_i _ hi
        refine List.pairwise_cons.mpr ⟨?_, hm⟩
        intro x hx
        obtain ⟨d, hd, rfl⟩ := List.mem_map.mp hx
        exact hi ▸ hc d hd
      · rename_i h1 h2
        refine List.pairwise_cons.mpr ⟨?_, ih hm⟩
        intro x hx
        obtain ⟨d, hd, rfl⟩ := List.mem_map.mp hx
        rcases Memory.mem_write hd with rfl | hd
        · exact Nat.lt_of_le_of_ne (Nat.le_of_not_lt h1) (Ne.symm h2)
        · exact hc d hd

/-- A write to an offset of the buffer keeps the canonical form. -/
theorem Memory.write_wf {m : Memory} {i : Nat} (b : Byte) (hi : i < Config.bufDepth) (h : m.wf) :
    (m.write i b).wf := by
  refine ⟨Memory.write_rising i b h.1, fun c hc => ?_⟩
  rcases Memory.mem_write hc with rfl | hc
  · exact hi
  · exact h.2 c hc

theorem Memory.reset_wf : State.reset.buf.wf := by decide

/-- What a store can do. -/
theorem store_next {s t : State} {i : Nat} {b : Byte} (h : store s i b = .next t) :
    i < Config.bufDepth ∧ t = { s with buf := s.buf.write i b } := by
  unfold store at h
  split at h
  · cases h; exact ⟨‹_›, rfl⟩
  · cases h

theorem store_keeps_wf {s t : State} {i : Nat} {b : Byte} (h : store s i b = .next t) (hs : s.buf.wf) :
    t.buf.wf := by
  obtain ⟨hi, rfl⟩ := store_next h
  exact Memory.write_wf b hi hs

/-- What a load can do. -/
theorem load_ok {s : State} {i : Nat} {b : Byte} :
    load s i = .ok b ↔ i < Config.bufDepth ∧ s.buf.read i = some b := by
  unfold load
  split
  · split <;> simp_all
  · simp_all

/-- The bytes of a longer load are the first byte and the load of the others. -/
theorem loadBytes_succ_ok {s : State} {i n : Nat} {bs : List Byte} :
    loadBytes s i (n + 1) = .ok bs ↔
      ∃ b rest, load s i = .ok b ∧ loadBytes s (i + 1) n = .ok rest ∧ bs = b :: rest := by
  constructor
  · intro h
    simp only [loadBytes] at h
    cases hb : load s i with
    | error r => simp [hb, bind, Except.bind] at h
    | ok b =>
      cases hr : loadBytes s (i + 1) n with
      | error r => simp [hb, hr, bind, Except.bind] at h
      | ok rest =>
        simp [hb, hr, bind, Except.bind, pure, Except.pure] at h
        exact ⟨b, rest, rfl, rfl, h.symm⟩
  · rintro ⟨b, rest, hb, hr, rfl⟩
    simp [loadBytes, hb, hr, bind, Except.bind, pure, Except.pure]

/-- Loads look at the buffer only. -/
theorem loadBytes_congr {s t : State} (h : s.buf = t.buf) (i n : Nat) : loadBytes s i n = loadBytes t i n := by
  induction n generalizing i with
  | zero => rfl
  | succ n ih => simp only [loadBytes, load, h, ih]

end Sys2Proof.Machine
end

