-- ==== Sys2Proof/Laws/Ops.lean ====
section
/-! SUPPORT. What each shared operation can do, said once. -/

namespace Sys2Proof.Machine

@[simp] theorem andThen_next (s : State) (f : State → Outcome) : andThen (.next s) f = f s := rfl

@[simp] theorem andThen_fault (r : Fault) (f : State → Outcome) : andThen (.fault r) f = .fault r := rfl

@[simp] theorem andThen_refused (r : Refusal) (f : State → Outcome) : andThen (.refused r) f = .refused r := rfl

theorem andThen_eq_next {o : Outcome} {f : State → Outcome} {u : State} (h : andThen o f = .next u) :
    ∃ t, o = .next t ∧ f t = .next u := by
  cases o with
  | next t => exact ⟨t, rfl, h⟩
  | fault r => cases h
  | refused r => cases h

@[simp] theorem addLog_addLog (s : State) (xs ys : List Transaction) :
    (s.addLog xs).addLog ys = s.addLog (xs ++ ys) := by
  simp [State.addLog]

@[simp] theorem addLog_nil (s : State) : s.addLog [] = s := by simp [State.addLog]

theorem raise_eq (e : Event) (s : State) : raise e s = s.addLog (reported s.verb e) := rfl

theorem mirror_eq (b : Byte) (s : State) : mirror b s = s.addLog (mirrored s.mirrorEn b) := rfl

/-- Raising several events appends what is transferred of each, in order. -/
theorem raiseAll_eq (es : List Event) (s : State) : raiseAll es s = s.addLog (es.flatMap (reported s.verb)) := by
  induction es generalizing s with
  | nil => simp [raiseAll]
  | cons e es ih =>
    have : raiseAll (e :: es) s = raiseAll es (raise e s) := rfl
    rw [this, ih, raise_eq, addLog_verb, addLog_addLog, List.flatMap_cons]

/-- What is transferred of one event: nothing, or one report. -/
theorem reported_cases (v : BitVec 2) (e : Event) :
    reported v e = [] ∨ reported v e = [.rep (.kindOnly e.kind)] ∨ reported v e = [.rep (.full e)] := by
  unfold reported
  split
  · split
    · exact .inr (.inr rfl)
    · exact .inr (.inl rfl)
  · exact .inl rfl

/-- What driving the pins can do. -/
theorem drivePins_cases (r : Bool) (v : BitVec 2) (m : Bool) (s : State) :
    (r = true ∧ drivePins r v m s = enterReset s) ∨
    (r = false ∧ s.rst = true ∧ drivePins r v m s = releaseReset v m s) ∨
    (r = false ∧ s.rst = false ∧ drivePins r v m s = s) := by
  cases r <;> cases h : s.rst <;> simp [drivePins, h]

/-- The row that runs is the meaning of the instruction `route` names. -/
theorem runRow_next (t : Byte) (tail : List Byte) (s : State) : ∃ u, runRow t tail s = .next u := by
  unfold runRow
  repeat' split
  all_goals exact ⟨_, rfl⟩

/-- What a dispatch can do: the type byte and the tail are loaded, RAW is raised, and the row is run. -/
theorem dispatch_next {s u : State} (h : dispatch s = .next u) :
    ∃ t tail, load s 0 = .ok t ∧ loadBytes s 1 (s.len.toNat - 1) = .ok tail ∧
      runRow t tail (raise (.raw s.len (t :: tail)) s) = .next u := by
  unfold dispatch at h
  split at h
  · exact ⟨_, _, ‹_›, ‹_›, h⟩
  · cases h
  · cases h

/-- What consuming a token can do. -/
theorem runToken_next {t : Token} {s u : State} (h : runToken t s = .next u) :
    ∃ i, decodeToken s.st s.len s.cnt t = .ok i ∧ exec i (accept t s) = .next u := by
  unfold runToken at h
  split at h
  · exact ⟨_, ‹_›, h⟩
  · cases h

/-- What a step that `rst` cuts short can do. -/
theorem runCut_next {t : Token} {n : Nat} {s u : State} (h : runCut t n s = .next u) :
    ∃ done, runToken t s = .next done ∧
      u = enterReset { accept t s with
            log := (accept t s).log ++ cutOutputs n (Config.withdrawnSeen s.freeIdx)
              (done.log.drop (accept t s).log.length)
            freeIdx := s.freeIdx + 1 } := by
  obtain ⟨done, h1, h2⟩ := andThen_eq_next h
  exact ⟨done, h1, by cases h2; rfl⟩

/-- What one step can do. -/
theorem step_next {s u : State} (h : step s = .next u) :
    (rxReady s = true ∧
      ((s.inputs = [] ∧ u = s) ∨
       (∃ t is, s.inputs = .token t :: is ∧ runToken t (setInputs is s) = .next u) ∨
       (∃ t n is, s.inputs = .cut t n :: is ∧ runCut t n (setInputs is s) = .next u) ∨
       (∃ r v m is, s.inputs = .pins r v m :: is ∧ u = drivePins r v m (setInputs is s)) ∨
       (∃ is, s.inputs = .idle :: is ∧ u = setInputs is s))) ∨
    (rxReady s = false ∧
      ((takePins s.inputs = none ∧ u = s) ∨
       (∃ r v m is, takePins s.inputs = some ((r, v, m), is) ∧ u = drivePins r v m (setInputs is s)))) := by
  unfold step cycle at h
  split at h
  · rename_i hr
    refine .inl ⟨hr, ?_⟩
    unfold readyCycle at h
    split at h
    · cases h; exact .inl ⟨‹_›, rfl⟩
    · exact .inr (.inl ⟨_, _, ‹_›, h⟩)
    · exact .inr (.inr (.inl ⟨_, _, _, ‹_›, h⟩))
    · cases h; exact .inr (.inr (.inr (.inl ⟨_, _, _, _, ‹_›, rfl⟩)))
    · cases h; exact .inr (.inr (.inr (.inr ⟨_, ‹_›, rfl⟩)))
  · rename_i hr
    refine .inr ⟨by simpa using hr, ?_⟩
    unfold waitingCycle at h
    split at h
    · cases h; exact .inl ⟨‹_›, rfl⟩
    · cases h; exact .inr ⟨_, _, _, _, ‹_›, rfl⟩

end Sys2Proof.Machine
end

