-- ==== Sys2Proof/Laws/PerInstr.lean ====
section
/-! SUPPORT. A fact about the syntax, one lemma per instruction: how many tokens an instruction occupies. -/

namespace Sys2Proof.Laws.EncodedSize

/-- A FRAME row occupies `L + 2` stream bytes (30_encoding.md R80), a TOKEN row one token (R105). -/
def Statement (i : Instr) : Prop :=
  (encode i).length = match i.frameParts with
    | some (_, tail) => (tail.length + 1) + 2
    | none => 1

theorem battery (tail : List Byte) : Statement (.battery tail) := by simp [Statement, encode, frameBytes, Instr.frameParts]
theorem gps (tail : List Byte) : Statement (.gps tail) := by simp [Statement, encode, frameBytes, Instr.frameParts]
theorem vario (tail : List Byte) : Statement (.vario tail) := by simp [Statement, encode, frameBytes, Instr.frameParts]
theorem attitude (tail : List Byte) : Statement (.attitude tail) := by simp [Statement, encode, frameBytes, Instr.frameParts]
theorem linkStats (tail : List Byte) : Statement (.linkStats tail) := by simp [Statement, encode, frameBytes, Instr.frameParts]
theorem radioSync (tail : List Byte) : Statement (.radioSync tail) := by simp [Statement, encode, frameBytes, Instr.frameParts]
theorem flightMode (tail : List Byte) : Statement (.flightMode tail) := by simp [Statement, encode, frameBytes, Instr.frameParts]
theorem unknown (t : Byte) (tail : List Byte) : Statement (.unknown t tail) := by simp [Statement, encode, frameBytes, Instr.frameParts]
theorem noise (b : Byte) : Statement (.noise b) := rfl
theorem marker : Statement .marker := rfl
theorem eosSeek : Statement .eosSeek := rfl
theorem eosRdlen : Statement .eosRdlen := rfl
theorem oversize (b : Byte) : Statement (.oversize b) := rfl
theorem empty : Statement .empty := rfl
theorem length (l : BitVec 6) : Statement (.length l) := rfl
theorem payloadByte (b : Byte) : Statement (.payloadByte b) := rfl
theorem payloadLast (b : Byte) : Statement (.payloadLast b) := rfl
theorem eosRdpay : Statement .eosRdpay := rfl

end Sys2Proof.Laws.EncodedSize
end

