-- ==== Sys2Proof/Tests/Slice0.lean ====
section
/-! SUPPORT. Small tests: words written out from the spec's encodings, ill-formed terms, single steps with expected
values of 95_test_vectors.md or computed by hand from the rules, and for each statement with hypotheses a
state that meets them (names `meets_…`). -/

namespace Sys2Proof.Tests

open Sys2Proof.Machine Sys2Proof.Safety

/-! ### Decoding: one word per constructor, bit by bit from opcode_table.json -/

theorem test_decode_battery :
    decode .frame [.byte 0b11101010, .byte 0b00000011, .byte 0b00001000, .byte 0b01000001, .byte 0b10000000] =
      .ok (.battery [0x41, 0x80], []) := by decide
theorem test_decode_gps :
    decode .frame [.byte 0b11101010, .byte 0b00000011, .byte 0b00000010, .byte 0b00010001, .byte 0b00000000] =
      .ok (.gps [0x11, 0x00], []) := by decide
theorem test_decode_vario :
    decode .frame [.byte 0b11101010, .byte 0b00000101, .byte 0b00000111, .byte 0b00000001, .byte 0b00000010, .byte 0b00000011, .byte 0b00000000] =
      .ok (.vario [1, 2, 3, 0], []) := by decide
theorem test_decode_attitude :
    decode .frame [.byte 0b11101010, .byte 0b00000100, .byte 0b00011110, .byte 0b00010010, .byte 0b00110100, .byte 0b11111111] =
      .ok (.attitude [0x12, 0x34, 0xFF], []) := by decide
theorem test_decode_linkStats :
    decode .frame [.byte 0b11101010, .byte 0b00000010, .byte 0b00010100, .byte 0b10000001] =
      .ok (.linkStats [0x81], []) := by decide
theorem test_decode_radioSync :
    decode .frame [.byte 0b11101010, .byte 0b00000011, .byte 0b00111010, .byte 0b11101010, .byte 0b00010000] =
      .ok (.radioSync [0xEA, 0x10], []) := by decide
theorem test_decode_flightMode :
    decode .frame [.byte 0b11101010, .byte 0b00000001, .byte 0b00100001] =
      .ok (.flightMode [], []) := by decide
theorem test_decode_unknown :
    decode .frame [.byte 0b11101010, .byte 0b00000100, .byte 0b00101001, .byte 0b00000001, .byte 0b00000010, .byte 0b00000000] =
      .ok (.unknown 0x29 [1, 2, 0], []) := by decide
theorem test_decode_noise : decode (.token .seek 0 0) [.byte 0b11001000] = .ok (.noise 0xC8, []) := by decide
theorem test_decode_marker : decode (.token .seek 0 0) [.byte 0b11101010] = .ok (.marker, []) := by decide
theorem test_decode_eosSeek : decode (.token .seek 0 0) [.eos] = .ok (.eosSeek, []) := by decide
theorem test_decode_eosRdlen : decode (.token .rdlen 0 0) [.eos] = .ok (.eosRdlen, []) := by decide
theorem test_decode_oversize : decode (.token .rdlen 0 0) [.byte 0b00111111] = .ok (.oversize 63, []) := by decide
theorem test_decode_empty : decode (.token .rdlen 0 0) [.byte 0b00000000] = .ok (.empty, []) := by decide
theorem test_decode_length : decode (.token .rdlen 0 0) [.byte 0b00111110] = .ok (.length 62, []) := by decide
theorem test_decode_payloadByte : decode (.token .rdpay 62 60) [.byte 0b11101010] = .ok (.payloadByte 0xEA, []) := by decide
theorem test_decode_payloadLast : decode (.token .rdpay 62 61) [.byte 0b11101010] = .ok (.payloadLast 0xEA, []) := by decide
theorem test_decode_eosRdpay : decode (.token .rdpay 3 1) [.eos] = .ok (.eosRdpay, []) := by decide

/-- R100: a marker and a zero length are no frame. -/
theorem test_decode_zero_length_refused :
    decode .frame [.byte 0xEA, .byte 0, .byte 8] = .error .emptyLength := by decide

/-- R137: RDPAY has no row for a byte when `CNT + 1 > LEN`. -/
theorem test_decode_past_length_refused : decode (.token .rdpay 3 3) [.byte 0] = .error .pastLength := by decide

/-! ### Well-formedness: an ill-formed term for each check -/

theorem test_illformed_battery : (.battery (List.replicate 62 0) : Instr).fault = some .payloadTooLong := by decide
theorem test_illformed_gps : (.gps (List.replicate 62 0) : Instr).fault = some .payloadTooLong := by decide
theorem test_illformed_vario : (.vario (List.replicate 62 0) : Instr).fault = some .payloadTooLong := by decide
theorem test_illformed_attitude : (.attitude (List.replicate 62 0) : Instr).fault = some .payloadTooLong := by decide
theorem test_illformed_linkStats : (.linkStats (List.replicate 62 0) : Instr).fault = some .payloadTooLong := by decide
theorem test_illformed_radioSync : (.radioSync (List.replicate 62 0) : Instr).fault = some .payloadTooLong := by decide
theorem test_illformed_flightMode : (.flightMode (List.replicate 62 0) : Instr).fault = some .payloadTooLong := by decide
theorem test_illformed_unknown : (.unknown 0x29 (List.replicate 62 0) : Instr).fault = some .payloadTooLong := by decide
theorem test_illformed_unknown_type : (Instr.unknown 0x3A []).fault = some .knownType := by decide
theorem test_illformed_noise : (Instr.noise 0xEA).fault = some .noiseIsMarker := by decide
theorem test_illformed_oversize : (Instr.oversize 62).fault = some .notOversize := by decide
theorem test_illformed_length_zero : (Instr.length 0).fault = some .lengthZero := by decide
theorem test_illformed_length_63 : (Instr.length 63).fault = some .lengthTooLong := by decide

/-! ### Single instructions and steps -/

/-- A state for tests: the reset state with the scanner, the working set and the inputs given. -/
def testState (st : ScanState) (len cnt : BitVec 6) (buf : Memory) (inputs : List Input) : State :=
  { State.reset with st := st, len := len, cnt := cnt, buf := buf, inputs := inputs }

/-- The log of an outcome that is a next state. -/
def logOf : Outcome → Option (List Transaction)
  | .next s => some s.log
  | .fault _ => none
  | .refused _ => none

/-- The scanner state, `LEN` and `CNT` of an outcome that is a next state. -/
def scanOf : Outcome → Option (ScanState × BitVec 6 × BitVec 6)
  | .next s => some (s.st, s.len, s.cnt)
  | .fault _ => none
  | .refused _ => none

/-- 95, V-BA4: byte order, the skipped byte, a percentage that is not clamped. -/
theorem test_battery :
    logOf (exec (.battery [0x01, 0x00, 0x00, 0x01, 0x12, 0x34, 0x00, 0xC8, 0x00]) State.reset) =
      some [.rep (.full (.battery 256 1 4660 200))] := by decide

/-- 95, V-DP5: the type byte is the only payload byte. -/
theorem test_battery_one_byte_payload :
    logOf (exec (.battery []) State.reset) = some [.rep (.full (.lenMismatch 8 0 8))] := by decide

/-- 95, V-LK2: negative SNR, antenna 1, power index 9, RSSI -255. -/
theorem test_linkStats :
    logOf (exec (.linkStats [0x28, 0x32, 0x64, 0xF6, 0x01, 0x05, 0x09, 0xFF, 0x00, 0x80, 0x00]) State.reset) =
      some [.rep (.full (.linkStats (BitVec.ofInt 9 (-40)) (BitVec.ofInt 9 (-50)) 100 (BitVec.ofInt 8 (-10)) 1 5 9
        (BitVec.ofInt 9 (-255)) 0 (BitVec.ofInt 8 (-128)) (BitVec.ofInt 9 (-50))))] := by decide

/-- 95, V-LK3: RSSI 0, antenna 2, power index 8. -/
theorem test_linkStats_other_antenna :
    logOf (exec (.linkStats [0x00, 0xFF, 0x64, 0x7F, 0x02, 0x0D, 0x08, 0x01, 0x63, 0xFF, 0x00]) State.reset) =
      some [.rep (.full (.linkStats 0 (BitVec.ofInt 9 (-255)) 100 127 2 13 50 (BitVec.ofInt 9 (-1)) 99
        (BitVec.ofInt 8 (-1)) 0))] := by decide

/-- 95, V-AT3: the top bit is a digit bit, not a sign. -/
theorem test_attitude :
    logOf (exec (.attitude [0x80, 0x00, 0x00, 0x01, 0x62, 0x83, 0x00]) State.reset) =
      some [.rep (.full (.attitude 8000 1 6283))] := by decide

/-- 95, V-AT4: roll has the digits A and B. -/
theorem test_attitude_nondecimal :
    logOf (exec (.attitude [0x12, 0x34, 0x1A, 0x2B, 0x00, 0x00, 0x00]) State.reset) =
      some [.rep (.full (.attNondec 0b010))] := by decide

/-- 95, V-RS4: `data[1]` is not examined; the 32-bit maximum. -/
theorem test_radioSync :
    logOf (exec (.radioSync [0xEA, 0xEE, 0x10, 0xFF, 0xFF, 0xFF, 0xFF, 0, 0, 0, 1, 0]) State.reset) =
      some [.rep (.full (.radioSync 4294967295 1))] := by decide

/-- 95, V-RS3: the subtype marker does not match; nothing is reported. -/
theorem test_radioSync_silent :
    logOf (exec (.radioSync [0xEA, 0x00, 0x11, 0, 0, 0x27, 0x10, 0, 0, 0x13, 0x88, 0]) State.reset) = some [] := by
  decide

/-- 95, V-FM2: the boundaries of the printable range. -/
theorem test_flightMode :
    logOf (exec (.flightMode [0x41, 0x1F, 0x20, 0x7E, 0x7F, 0x80, 0xFF, 0x21, 0x00]) State.reset) =
      some [.rep (.full (.flightMode 4 [0x41, 0x20, 0x7E, 0x21]))] := by decide

/-- 95, V-GV2, the two values of `GV_LEN_CHECK`. -/
theorem test_gps :
    logOf (exec (.gps [0x11, 0x00]) State.reset) = some [.rep (.full .gpsSeen)] ∧
    logOf (exec (.gps [0x11, 0x00]) { State.reset with gvLenCheck := true }) =
      some [.rep (.full (.lenMismatch 2 1 16))] := by decide

/-- 95, V-GV4, the two values of `GV_LEN_CHECK`. -/
theorem test_vario :
    logOf (exec (.vario [1, 2, 3, 4, 0]) State.reset) = some [.rep (.full .varioSeen)] ∧
    logOf (exec (.vario [1, 2, 3, 4, 0]) { State.reset with gvLenCheck := true }) =
      some [.rep (.full (.lenMismatch 7 4 3))] := by decide

/-- 95, V-DP6; R260: the kind alone at level 1. -/
theorem test_unknown :
    logOf (exec (.unknown 0x29 [1, 2, 0]) State.reset) = some [.rep (.full (.unknown 0x29))] ∧
    logOf (exec (.unknown 0x29 [1, 2, 0]) { State.reset with verb := 1 }) =
      some [.rep (.kindOnly .unknown)] := by decide

/-- R121, 95 V-SC2: noise is reported and not mirrored. -/
theorem test_noise_step :
    logOf (step (testState .seek 0 0 [] [.token (.byte 0xC8)])) =
      some [.rx (.byte 0xC8), .rep (.full (.noise 0xC8))] := by decide

/-- R122, 95 V-SC3. -/
theorem test_marker_step :
    logOf (step (testState .seek 0 0 [] [.token (.byte 0xEA)])) = some [.rx (.byte 0xEA), .mir 0xEA] ∧
    scanOf (step (testState .seek 0 0 [] [.token (.byte 0xEA)])) = some (.rdlen, 0, 0) := by decide

/-- R125, 95 V-SC5: a marker read as a length. -/
theorem test_oversize_step :
    logOf (step (testState .rdlen 5 3 [] [.token (.byte 0xEA)])) =
      some [.rx (.byte 0xEA), .mir 0xEA, .rep (.full (.oversize 234))] ∧
    scanOf (step (testState .rdlen 5 3 [] [.token (.byte 0xEA)])) = some (.seek, 5, 3) := by decide

/-- R126, 95 V-SC6. -/
theorem test_empty_step :
    logOf (step (testState .rdlen 5 3 [] [.token (.byte 0)])) =
      some [.rx (.byte 0), .mir 0, .rep (.full .empty)] ∧
    scanOf (step (testState .rdlen 5 3 [] [.token (.byte 0)])) = some (.seek, 5, 3) := by decide

/-- R127, 95 V-SC8: 62 is accepted. -/
theorem test_length_step :
    scanOf (step (testState .rdlen 5 3 [] [.token (.byte 62)])) = some (.rdpay, 62, 0) ∧
    logOf (step (testState .rdlen 5 3 [] [.token (.byte 62)])) = some [.rx (.byte 62), .mir 62] := by decide

/-- R128: a marker inside a payload is data. -/
theorem test_payloadByte_step :
    scanOf (step (testState .rdpay 10 0 [] [.token (.byte 0xEA)])) = some (.rdpay, 10, 1) ∧
    logOf (step (testState .rdpay 10 0 [] [.token (.byte 0xEA)])) = some [.rx (.byte 0xEA), .mir 0xEA] := by decide

/-- R129, 95 V-DP4: mirror, RAW, outcome, in this order; back to SEEK; `CNT` left at `LEN - 1`. -/
theorem test_payloadLast_step :
    logOf (step (testState .rdpay 2 1 [(0, 8)] [.token (.byte 0x55)])) =
      some [.rx (.byte 0x55), .mir 0x55, .rep (.full (.raw 2 [8, 0x55])), .rep (.full (.lenMismatch 8 0 8))] ∧
    scanOf (step (testState .rdpay 2 1 [(0, 8)] [.token (.byte 0x55)])) = some (.seek, 2, 1) := by decide

/-- 95, V-SC7: a one-byte payload is its own type byte. -/
theorem test_payloadLast_one_byte :
    logOf (step (testState .rdpay 1 0 [] [.token (.byte 0xEA)])) =
      some [.rx (.byte 0xEA), .mir 0xEA, .rep (.full (.raw 1 [0xEA])), .rep (.full (.unknown 0xEA))] := by decide

/-- The stage at which a next state has met end of stream. -/
def stageOf : Outcome → Option (ScanState × ScanState)
  | .next s => some (s.st, s.eosAt)
  | .fault _ => none
  | .refused _ => none

/-- R123, R124, R130: the three end-of-stream rows. -/
theorem test_eosSeek_step : stageOf (step (testState .seek 0 0 [] [.token .eos])) = some (.done, .seek) := by decide
theorem test_eosRdlen_step : stageOf (step (testState .rdlen 0 0 [] [.token .eos])) = some (.done, .rdlen) := by decide
theorem test_eosRdpay_step : stageOf (step (testState .rdpay 10 3 [] [.token .eos])) = some (.done, .rdpay) := by decide

/-- R131, 95 V-SC12: nothing after end of stream is consumed. -/
theorem test_done_consumes_nothing :
    logOf (step (testState .done 0 0 [] [.token (.byte 0xEA)])) = some [] := by decide

/-- R331, 95 V-RST1: a reset in the middle of a frame. -/
theorem test_reset_mid_frame :
    scanOf (step (testState .rdpay 10 2 [(0, 8), (1, 0)] [.pins true 3 true])) = some (.seek, 0, 0) := by decide

/-- R38: with `rx_eos` the data is ignored. -/
theorem test_port_eos : rxToken true 0xEA = .eos ∧ rxToken false 0xEA = .byte 0xEA := by decide

/-- R257: a RAW report pads its bytes with zeros. -/
theorem test_raw_signals :
    ((Report.full (.raw 2 [8, 0x55])).signals.raw_bytes.take 3 = [8, 0x55, 0]) ∧
    (Report.full (.raw 2 [8, 0x55])).signals.raw_bytes.length = 62 := by decide

/-! ### Table words -/

/-- The decoder reads a FRAME row's table word, and the next step after reset runs it. -/
theorem test_table_battery :
    decodeTableWord 24 0xEA0A08 = some (.battery [0, 0, 0, 0, 0, 0, 0, 0, 0]) ∧
    logOf (step (State.reset.withFetchWord 24 0xEA0A08)) =
      some [.rx (.byte 0), .mir 0, .rep (.full (.raw 10 [8, 0, 0, 0, 0, 0, 0, 0, 0, 0])),
        .rep (.full (.battery 0 0 0 0))] := by decide

/-- The shortest frame: the type byte itself is offered. -/
theorem test_table_flightMode :
    decodeTableWord 24 0xEA0121 = some (.flightMode []) ∧
    logOf (step (State.reset.withFetchWord 24 0xEA0121)) =
      some [.rx (.byte 0x21), .mir 0x21, .rep (.full (.raw 1 [0x21])), .rep (.full (.flightMode 0 []))] := by decide

theorem test_table_tokens :
    decodeTableWord 8 0xEA = some .marker ∧ decodeTableWord 8 0x00 = some .empty ∧
    decodeTableWord 8 0x0A = some (.length 10) := by decide

theorem test_table_length_step :
    scanOf (step (State.reset.withFetchWord 8 0x0A)) = some (.rdpay, 10, 0) := by decide

theorem test_table_oversize_length_refused : decodeTableWord 24 0xEA3F08 = none := by decide

/-! ### The hypotheses of the statements can be met

One theorem for each statement with hypotheses, and for each of its clauses, at a boundary of the clause's
range. -/

/-- 61 stored bytes: the state before the last byte of the longest frame. -/
def longestFrame (inputs : List Input) : State :=
  testState .rdpay 62 61 (fillBuf [] 0 (List.replicate 61 0x21)) inputs

theorem inv_reset_with (is : List Input) : Inv (testState .seek 0 0 [] is) where
  frame h := by cases h
  stored h := by cases h
  stage := ⟨nofun, fun _ => rfl⟩
  buffer := (by decide : Memory.wf [])
  held h := by cases h

theorem inv_longestFrame (is : List Input) : Inv (longestFrame is) where
  frame _ := (by decide : 1 ≤ (62 : BitVec 6).toNat ∧ (62 : BitVec 6).toNat ≤ Config.maxLen ∧
    (61 : BitVec 6).toNat < (62 : BitVec 6).toNat)
  stored _ := (by decide : ∀ i < 61, (Memory.read (fillBuf [] 0 (List.replicate 61 0x21)) i).isSome)
  stage := ⟨nofun, fun _ => rfl⟩
  buffer := (by decide : Memory.wf (fillBuf [] 0 (List.replicate 61 0x21)))
  held h := by cases h

theorem inv_freshPayload (is : List Input) : Inv (testState .rdpay 2 0 [] is) where
  frame _ := (by decide : 1 ≤ (2 : BitVec 6).toNat ∧ (2 : BitVec 6).toNat ≤ Config.maxLen ∧
    (0 : BitVec 6).toNat < (2 : BitVec 6).toNat)
  stored _ := nofun
  stage := ⟨nofun, fun _ => rfl⟩
  buffer := (by decide : Memory.wf [])
  held h := by cases h

theorem meets_DecodeReadsEncode :
    (Instr.battery (List.replicate 61 0xFF)).WellFormed ∧ (Instr.battery (List.replicate 61 0xFF)).readIn .frame = true ∧
    (Instr.length 62).WellFormed ∧ (Instr.length 62).readIn (.token .rdlen 0 0) = true := by decide

theorem meets_EncodeWritesWhatDecodeRead :
    decode (.token .rdlen 0 0) [.byte 1, .eos] = .ok (.length 1, [.eos]) := by decide

theorem meets_EveryTokenHasExactlyOneRow : Inv (longestFrame []) ∧ (longestFrame []).st ≠ .done :=
  ⟨inv_longestFrame [], by decide⟩

theorem meets_NonFramesAreRefused_marker : (0xEB : Byte) ≠ 0xEA := by decide
theorem meets_NonFramesAreRefused_length : 62 < (63 : Byte).toNat := by decide

theorem meets_StepRunsTheDecodedInstruction :
    rxReady (longestFrame [.token (.byte 7)]) = true ∧ (longestFrame [.token (.byte 7)]).inputs = [.token (.byte 7)] ∧
    decode (.token (longestFrame []).st (longestFrame []).len (longestFrame []).cnt) [.byte 7] =
      .ok (.payloadLast 7, []) := by decide

theorem meets_LastByteRunsTheSelectedFrameRow :
    (longestFrame []).cnt.toNat + 1 = (longestFrame []).len.toNat ∧ (longestFrame []).len.toNat ≤ 62 ∧
    payloadWith (longestFrame []) 0x55 = some (0x21 :: (List.replicate 60 0x21 ++ [0x55])) :=
  ⟨by decide, by decide, by decide +kernel⟩

theorem meets_FrameTokensRunItsRow :
    Inv (testState .seek 0 0 [] ((encode (.flightMode [])).map .token)) ∧
    rxReady (testState .seek 0 0 [] ((encode (.flightMode [])).map .token)) = true ∧
    (Instr.flightMode []).WellFormed ∧ (Instr.flightMode []).frameParts = some (0x21, []) :=
  ⟨inv_reset_with _, by decide, by decide, by decide⟩

theorem meets_StepKeepsInvariant : Inv (testState .rdpay 2 0 [] [.token (.byte 9)]) ∧
    ∃ u, step (testState .rdpay 2 0 [] [.token (.byte 9)]) = .next u := ⟨inv_freshPayload _, _, rfl⟩

theorem meets_NoStepStops : Inv (testState .rdpay 2 0 [] [.token .eos]) := inv_freshPayload _

theorem meets_NoiseRow :
    let s := testState .seek 0 0 [] [.token (.byte 0xEB)]
    s.rst = false ∧ s.st = .seek ∧ s.inputs = [.token (.byte 0xEB)] ∧ (0xEB : Byte) ≠ 0xEA := by decide

theorem meets_MarkerRow :
    let s := testState .seek 0 0 [] [.token (.byte 0xEA)]
    s.rst = false ∧ s.st = .seek ∧ s.inputs = [.token (.byte 0xEA)] := by decide

theorem meets_OversizeRow :
    let s := testState .rdlen 0 0 [] [.token (.byte 63)]
    s.rst = false ∧ s.st = .rdlen ∧ s.inputs = [.token (.byte 63)] ∧ 62 < (63 : Byte).toNat := by decide

theorem meets_EmptyRow :
    let s := testState .rdlen 0 0 [] [.token (.byte 0)]
    s.rst = false ∧ s.st = .rdlen ∧ s.inputs = [.token (.byte 0)] := by decide

theorem meets_LengthRow :
    let s := testState .rdlen 0 0 [] [.token (.byte 62)]
    s.rst = false ∧ s.st = .rdlen ∧ s.inputs = [.token (.byte 62)] ∧ 1 ≤ (62 : Byte).toNat ∧ (62 : Byte).toNat ≤ 62 := by
  decide

theorem meets_PayloadByteRow :
    let s := testState .rdpay 2 0 [] [.token (.byte 0xEA)]
    s.rst = false ∧ s.st = .rdpay ∧ s.inputs = [.token (.byte 0xEA)] ∧ s.cnt.toNat + 1 < s.len.toNat := by decide

theorem meets_PayloadLastRow :
    let s := longestFrame [.token (.byte 0)]
    Inv s ∧ s.rst = false ∧ s.st = .rdpay ∧ s.inputs = [.token (.byte 0)] ∧ s.cnt.toNat + 1 = s.len.toNat :=
  ⟨inv_longestFrame _, by decide, by decide, by decide, by decide⟩

theorem meets_EndOfStreamRows :
    let s := testState .rdpay 2 0 [] [.token .eos]
    s.rst = false ∧ s.st ≠ .done ∧ s.inputs = [.token .eos] := by decide

theorem meets_DoneIsAbsorbing :
    let s := testState .done 0 0 [] [.token (.byte 0xEA)]
    s.st = .done ∧ s.rst = false ∧ (∀ r v m, Input.pins r v m ∉ s.inputs) ∧ ∃ u, step s = .next u := by
  refine ⟨rfl, rfl, ?_, ⟨_, rfl⟩⟩
  intro r v m h
  simp [testState] at h

theorem meets_WaitingChangesNothing :
    (testState .rdpay 2 0 [] []).inputs = [] ∧ rxReady (testState .rdpay 2 0 [] [.idle]) = true ∧
    (testState .rdpay 2 0 [] [.idle]).inputs = [.idle] := by decide

theorem meets_RunEndsExactlyAtEndOfStream :
    let s := testState .seek 0 0 [] (bytesIn [0x55] ++ .token .eos :: [.token (.byte 1)])
    Inv s ∧ rxReady s = true ∧ s.inputs = bytesIn [0x55] ++ .token .eos :: [.token (.byte 1)] :=
  ⟨inv_reset_with _, by decide, by decide⟩

theorem meets_PayloadIsStoredInArrivalOrder :
    let s := testState .rdpay 2 0 [] (bytesIn [0x55])
    Inv s ∧ s.st = .rdpay ∧ s.cnt = 0 ∧ [(0x55 : Byte)].length < s.len.toNat ∧ s.inputs = bytesIn [0x55] ++ [] :=
  ⟨inv_freshPayload _, by decide, by decide, by decide, by decide⟩

theorem meets_AbandonedAttemptCostsTwoBytes (l : Byte) (h : l = 0 ∨ l = 63) :
    let s := testState .seek 0 0 [] [.token (.byte 0xEA), .token (.byte l)]
    s.rst = false ∧ s.st = .seek ∧ s.inputs = [.token (.byte 0xEA), .token (.byte l)] ∧ (l = 0 ∨ 62 < l.toNat) := by
  rcases h with rfl | rfl <;> decide

theorem meets_AttitudeRecordOrDiagnostic_decimal :
    ∀ d ∈ Nat.digits 16 ((0x99 : Byte).toNat * 256 + (0x99 : Byte).toNat), d ≤ 9 := by
  show ∀ d ∈ Nat.digits 16 39321, d ≤ 9
  norm_num

theorem meets_AttitudeRecordOrDiagnostic_nondecimal :
    ¬ ∀ d ∈ Nat.digits 16 ((0x00 : Byte).toNat * 256 + (0x0A : Byte).toNat), d ≤ 9 := by
  show ¬ ∀ d ∈ Nat.digits 16 10, d ≤ 9
  norm_num

theorem meets_AttitudeStaysBelowOneRadian :
    ∃ t, exec (.attitude [0x99, 0x99, 0, 0, 0, 0, 0]) State.reset = .next t ∧
      Transaction.rep (.full (.attitude 9999 0 0)) ∈ t.log.drop State.reset.log.length :=
  ⟨_, rfl, by decide⟩

theorem meets_RadioSyncRecordOrSilence :
    ((0xEA : Byte) = 0xEA ∧ (0x10 : Byte) = 0x10) ∧ ¬ ((0xEA : Byte) = 0xEA ∧ (0x11 : Byte) = 0x10) := by decide

theorem meets_FlightModeText :
    (Instr.flightMode (List.replicate 61 0x41)).WellFormed ∧ (Instr.flightMode []).WellFormed := by decide

theorem meets_GpsAndVarioSeen : (List.replicate 61 (0 : Byte)).length + 1 ≤ 62 := by decide

theorem meets_UnknownTypeReported : (0xEA : Byte) ∉ knownTypes ∧ (0 : Byte) ∉ knownTypes := by decide

theorem meets_LengthMismatchDropsTheFrame :
    (List.replicate 61 (0 : Byte)).length + 1 ≤ 62 ∧ (List.replicate 10 (0 : Byte)).dropLast.length ≠ 8 ∧
    (List.replicate 12 (0 : Byte)).dropLast.length ≠ 10 ∧ (List.replicate 8 (0 : Byte)).dropLast.length ≠ 6 ∧
    (List.replicate 13 (0 : Byte)).dropLast.length ≠ 11 := by decide

theorem meets_DispatchReportsRawAndAtMostOneEvent :
    let s := testState .rdpay 2 1 [(0, 8), (1, 0)] []
    1 ≤ s.len.toNat ∧ ∃ t, dispatch s = .next t := ⟨by decide, _, rfl⟩

theorem meets_LoadsAreBigEndian :
    let s := testState .rdpay 62 61 [(58, 1), (59, 2), (60, 3), (61, 4)] []
    load s 58 = .ok 1 ∧ load s (58 + 1) = .ok 2 ∧ load s (58 + 2) = .ok 3 ∧ load s (58 + 3) = .ok 4 := ⟨rfl, rfl, rfl, rfl⟩

theorem meets_FieldsAreBufferLoads :
    let s := testState .rdpay 6 5 [(0, 0x14), (1, 1), (2, 2), (3, 3), (4, 4), (5, 9)] []
    loadBytes s 0 s.len.toNat = .ok (0x14 :: [1, 2, 3, 4, 9]) ∧ 3 < (dataOf [1, 2, 3, 4, 9]).length ∧
    2 + 1 < (dataOf [1, 2, 3, 4, 9]).length ∧ 0 + 3 < (dataOf [1, 2, 3, 4, 9]).length :=
  ⟨rfl, by decide, by decide, by decide⟩

theorem meets_WorkingSetWriters :
    let s := testState .rdlen 0 7 [] [.token (.byte 62)]
    rxReady s = true ∧ s.inputs = [.token (.byte 62)] ∧
    ∃ u, step s = .next u ∧ u.len ≠ s.len ∧ u.cnt ≠ s.cnt := ⟨by decide, rfl, _, rfl, by decide, by decide⟩

theorem meets_WorkingSetWriters_buffer :
    let s := testState .rdpay 2 0 [] [.token (.byte 9)]
    rxReady s = true ∧ s.inputs = [.token (.byte 9)] ∧
    ∃ u, step s = .next u ∧ load u 0 = .ok 9 ∧ load s 0 = .error .bufUnwritten := ⟨by decide, rfl, _, rfl, rfl, rfl⟩

theorem meets_ConfigurationChangesOnlyAtReset :
    ∃ u, step { State.reset with rst := true, inputs := [.pins false 0 false] } = .next u ∧ u.verb = 0 := ⟨_, rfl, rfl⟩

theorem meets_AssertedResetHoldsTheResetValues :
    (testState .done 3 2 [] [.pins true 0 false]).inputs = [.pins true 0 false] ∧
    ({ State.reset with rst := true, inputs := [.token .eos] } : State).rst = true ∧
    ∀ r v m, Input.pins r v m ∉ ({ State.reset with rst := true, inputs := [.token .eos] } : State).inputs := by
  refine ⟨rfl, rfl, fun r v m h => ?_⟩
  simp at h

theorem meets_ReleasedResetSamplesThePins :
    let s : State := { State.reset with rst := true, inputs := [.pins false 1 false] }
    let r : State := { State.reset with rst := false, inputs := [.pins false 1 false] }
    s.rst = true ∧ s.inputs = [.pins false 1 false] ∧ r.rst = false ∧ r.inputs = [.pins false 1 false] := by decide

theorem meets_ResetInsideAStepCutsItsTransactions :
    let s := testState .rdpay 2 1 [(0, 8)] [.cut (.byte 0) 1]
    rxReady s = true ∧ s.inputs = [.cut (.byte 0) 1] ∧
    ∃ v, step { s with inputs := [.token (.byte 0)] } = .next v := ⟨by decide, rfl, _, rfl⟩

theorem meets_ReportGatingAndDetail :
    (Event.noise 0).kind ∉ [EventKind.raw, .lenMismatch, .attNondec] ∧
    (Event.attNondec 1).kind ∈ [EventKind.raw, .lenMismatch, .attNondec] := by decide

theorem meets_KindCodesAreDistinct : kindCode .attNondec = kindCode .attNondec := rfl

theorem meets_OrderWithinAStep :
    let s := testState .rdlen 0 0 [] [.token (.byte 255)]
    rxReady s = true ∧ s.inputs = [.token (.byte 255)] ∧ ∃ u, step s = .next u := ⟨by decide, rfl, _, rfl⟩

theorem meets_MirrorIsTheFrameAttempts :
    let s := testState .seek 0 0 [] ([Token.byte 0xEA, .eos].map .token)
    Inv s ∧ rxReady s = true ∧ s.st = .seek ∧ s.inputs = [Token.byte 0xEA, .eos].map .token :=
  ⟨inv_reset_with _, by decide, rfl, rfl⟩

theorem meets_MirrorReplaysTheAttempts :
    let s := testState .seek 0 0 [] (bytesIn [0x55, 0xEA])
    Inv s ∧ rxReady s = true ∧ s.st = .seek ∧ s.mirrorEn = true ∧ s.inputs = bytesIn [0x55, 0xEA] ∧
    ∃ u, steps 2 s = .next u ∧ mirBytes u.log = mirBytes s.log ++ [0xEA] :=
  ⟨inv_reset_with _, by decide, rfl, rfl, rfl, _, rfl, rfl⟩

theorem meets_LevelAffectsReportsOnly :
    let s := testState .seek 0 0 [] [.token (.byte 0x55)]
    let t := { s with verb := 0 }
    SameButReports s t ∧ mirBytes s.log = mirBytes t.log ∧ ∃ u, steps 1 s = .next u := ⟨rfl, rfl, _, rfl⟩

theorem meets_MirrorAffectsMirrorOnly :
    let s := testState .seek 0 0 [] [.token (.byte 0xEA)]
    let t := { s with mirrorEn := false }
    SameButMirror s t ∧ reports s.log = reports t.log ∧ (∀ x k, Input.cut x k ∉ s.inputs) ∧
    ∃ u, steps 1 s = .next u := by
  refine ⟨rfl, rfl, fun x k h => ?_, _, rfl⟩
  simp [testState] at h

theorem meets_DeadValuesAreNeverSeen :
    let s := testState .seek 0 0 [] [.token (.byte 0xEA)]
    let t := testState .seek 62 61 [(3, 9)] [.token (.byte 0xEA)]
    Inv s ∧ Inv t ∧ s.st = .seek ∧ SameButDead s t ∧ ∃ u, steps 1 s = .next u :=
  ⟨inv_reset_with _,
   { frame := fun h => by cases h
     stored := fun h => by cases h
     stage := ⟨by decide, fun _ => rfl⟩
     buffer := by decide
     held := fun h => by cases h },
   rfl, rfl, _, rfl⟩

end Sys2Proof.Tests
end

section
/-! What one step does: each row of the transition table (40_frame_synchronizer.md R137) with its successor state,
and the step as what the environment does next. -/

namespace Sys2Proof.Machine

/-- `rx_ready` is 1 exactly when `rst` is released and the run has not ended (R38, R131, R330). -/
theorem rxReady_iff {s : State} : rxReady s = true ↔ s.rst = false ∧ s.st ≠ .done := by
  simp [rxReady]

/-! ### The payload byte that a token brings -/

/-- The state after a payload byte is accepted, mirrored and stored at `CNT` (R128, R129). -/
def payloadStored (b : Byte) (s : State) : State :=
  { mirror b (accept (.byte b) s) with buf := s.buf.write s.cnt.toNat b }

section
variable (b : Byte) (s : State)

@[simp] theorem payloadStored_st : (payloadStored b s).st = s.st := rfl
@[simp] theorem payloadStored_len : (payloadStored b s).len = s.len := rfl
@[simp] theorem payloadStored_cnt : (payloadStored b s).cnt = s.cnt := rfl
@[simp] theorem payloadStored_buf : (payloadStored b s).buf = s.buf.write s.cnt.toNat b := rfl
@[simp] theorem payloadStored_eosAt : (payloadStored b s).eosAt = s.eosAt := rfl
@[simp] theorem payloadStored_verb : (payloadStored b s).verb = s.verb := rfl
@[simp] theorem payloadStored_mirrorEn : (payloadStored b s).mirrorEn = s.mirrorEn := rfl
@[simp] theorem payloadStored_rst : (payloadStored b s).rst = s.rst := rfl
@[simp] theorem payloadStored_gvLenCheck : (payloadStored b s).gvLenCheck = s.gvLenCheck := rfl
@[simp] theorem payloadStored_inputs : (payloadStored b s).inputs = s.inputs := rfl
@[simp] theorem payloadStored_log :
    (payloadStored b s).log = s.log ++ [.rx (.byte b)] ++ mirrored s.mirrorEn b := rfl
@[simp] theorem payloadStored_freeIdx : (payloadStored b s).freeIdx = s.freeIdx := rfl

end

/-- The store of a payload byte happens exactly when `CNT` is an offset of the buffer (R50, R51). -/
theorem store_payload {b : Byte} {s t : State} :
    store (mirror b (accept (.byte b) s)) s.cnt.toNat b = .next t ↔
      s.cnt.toNat < Config.bufDepth ∧ t = payloadStored b s := by
  constructor
  · exact store_next
  · rintro ⟨hi, rfl⟩
    simp only [store, hi, if_true]
    rfl

/-- `CNT + 1` does not wrap while it is below `LEN`. -/
theorem cnt_succ {s : State} (h : s.cnt.toNat + 1 < s.len.toNat) : (s.cnt + 1).toNat = s.cnt.toNat + 1 := by
  have hlen := s.len.isLt
  have hone : (1 : BitVec 6).toNat = 1 := rfl
  rw [BitVec.toNat_add, hone]
  omega

/-- Up to 62 the field `L` of LENGTH holds all of its byte (R99). -/
theorem toNat_lengthField {b : Byte} (h : b.toNat ≤ Config.maxLen) : (b.setWidth 6).toNat = b.toNat := by
  have hmax : Config.maxLen = 62 := rfl
  rw [BitVec.toNat_setWidth]
  omega

/-- LENGTH mirrors the byte it consumed (R127). -/
theorem setWidth_lengthField {b : Byte} (h : b.toNat ≤ Config.maxLen) : (b.setWidth 6).setWidth 8 = b := by
  have hb := toNat_lengthField h
  apply BitVec.eq_of_toNat_eq
  rw [BitVec.toNat_setWidth]
  omega

/-! ### The dispatcher only reports -/

/-- A FRAME row raises events, which depend on its type byte, its tail and `GV_LEN_CHECK` alone (R150, R154). -/
theorem runRow_raises (ty : Byte) (tail : List Byte) (s : State) :
    ∃ es : List Event, ∀ r : State, r.gvLenCheck = s.gvLenCheck → runRow ty tail r = .next (raiseAll es r) := by
  unfold runRow
  split_ifs with battery linkStats attitude radioSync flightMode gps vario
  · exact ⟨[_], fun _ _ => rfl⟩
  · exact ⟨[_], fun _ _ => rfl⟩
  · exact ⟨[_], fun _ _ => rfl⟩
  · exact ⟨_, fun _ _ => rfl⟩
  · exact ⟨[_], fun _ _ => rfl⟩
  · exact ⟨[_], fun r hgv => by simp only [execGps, hgv]; rfl⟩
  · exact ⟨[_], fun r hgv => by simp only [execVario, hgv]; rfl⟩
  · exact ⟨[_], fun _ _ => rfl⟩

/-- A dispatch adds reports to the log and writes nothing else; another state of the same level and
`GV_LEN_CHECK` that loads the same payload reports the same. -/
theorem dispatch_reports {s u : State} (h : dispatch s = .next u) :
    ∃ ts, u = s.addLog ts ∧
      ∀ r : State, r.gvLenCheck = s.gvLenCheck → r.verb = s.verb → r.len = s.len → load r 0 = load s 0 →
        loadBytes r 1 (s.len.toNat - 1) = loadBytes s 1 (s.len.toNat - 1) → dispatch r = .next (r.addLog ts) := by
  obtain ⟨ty, tail, hty, htail, hrun⟩ := dispatch_next h
  obtain ⟨es, hes⟩ := runRow_raises ty tail s
  refine ⟨reported s.verb (.raw s.len (ty :: tail)) ++ es.flatMap (reported s.verb), ?_, ?_⟩
  · cases (hes (raise _ s) rfl).symm.trans hrun
    simp [raiseAll_eq, raise_eq]
  · intro r hgv hverb hlen hload hloads
    have hrow : dispatch r = runRow ty tail (raise (.raw s.len (ty :: tail)) r) := by
      simp [dispatch, hlen, hload, hloads, hty, htail]
    rw [hrow, hes (raise _ r) hgv]
    simp [raiseAll_eq, raise_eq, hverb]

/-! ### The rows of the transition table -/

/-- What consuming a token does: one constructor per row of the transition table (R137), with the condition that
selects the row and the state after it (R121 to R130). -/
inductive TokenStep (s : State) : Token → State → Prop where
  | noise {b : Byte} (hst : s.st = .seek) (hb : b ≠ Config.marker) :
      TokenStep s (.byte b) (setSt .seek (raise (.noise b) (accept (.byte b) s)))
  | marker (hst : s.st = .seek) :
      TokenStep s (.byte Config.marker) (setSt .rdlen (mirror Config.marker (accept (.byte Config.marker) s)))
  | eosSeek (hst : s.st = .seek) : TokenStep s .eos (endOfStream .seek (accept .eos s))
  | eosRdlen (hst : s.st = .rdlen) : TokenStep s .eos (endOfStream .rdlen (accept .eos s))
  | oversize {b : Byte} (hst : s.st = .rdlen) (hb : Config.maxLen < b.toNat) :
      TokenStep s (.byte b) (setSt .seek (raise (.oversize b) (mirror b (accept (.byte b) s))))
  | empty (hst : s.st = .rdlen) : TokenStep s (.byte 0) (setSt .seek (raise .empty (mirror 0 (accept (.byte 0) s))))
  | length {b : Byte} (hst : s.st = .rdlen) (hpos : 1 ≤ b.toNat) (hmax : b.toNat ≤ Config.maxLen) :
      TokenStep s (.byte b) (setSt .rdpay (setCnt 0 (setLen (b.setWidth 6) (mirror b (accept (.byte b) s)))))
  | payloadByte {b : Byte} (hst : s.st = .rdpay) (hcnt : s.cnt.toNat + 1 < s.len.toNat)
      (hbuf : s.cnt.toNat < Config.bufDepth) :
      TokenStep s (.byte b) (setSt .rdpay (setCnt (s.cnt + 1) (payloadStored b s)))
  | payloadLast {b : Byte} {v : State} (hst : s.st = .rdpay) (hcnt : s.cnt.toNat + 1 = s.len.toNat)
      (hbuf : s.cnt.toNat < Config.bufDepth) (hd : dispatch (payloadStored b s) = .next v) :
      TokenStep s (.byte b) (setSt .seek v)
  | eosRdpay (hst : s.st = .rdpay) : TokenStep s .eos (endOfStream .rdpay (accept .eos s))

theorem runToken_of_decode {s : State} {t : Token} {i : Instr} (h : decodeToken s.st s.len s.cnt t = .ok i) :
    runToken t s = exec i (accept t s) := by
  simp [runToken, h]

/-- A row of the table is what the machine does. -/
theorem TokenStep.runToken_eq {s u : State} {t : Token} (h : TokenStep s t u) : runToken t s = .next u := by
  cases h with
  | @noise b hst hb => exact runToken_of_decode (i := .noise b) (by simp [decodeToken, hst, hb])
  | marker hst => exact runToken_of_decode (i := .marker) (by simp [decodeToken, hst])
  | eosSeek hst => exact runToken_of_decode (i := .eosSeek) (by simp [decodeToken, hst])
  | eosRdlen hst => exact runToken_of_decode (i := .eosRdlen) (by simp [decodeToken, hst])
  | @oversize b hst hb => exact runToken_of_decode (i := .oversize b) (by simp [decodeToken, hst, hb])
  | empty hst => exact runToken_of_decode (i := .empty) (by simp [decodeToken, hst, Config.maxLen])
  | @length b hst hpos hmax =>
    have hb : b ≠ 0 := by rintro rfl; exact absurd hpos (by decide)
    rw [runToken_of_decode (i := .length (b.setWidth 6)) (by
      simp only [decodeToken, hst, Nat.not_lt.mpr hmax, hb, if_false])]
    simp only [exec, execLength, setWidth_lengthField hmax]
  | @payloadByte b hst hcnt hbuf =>
    rw [runToken_of_decode (i := .payloadByte b) (by simp [decodeToken, hst, hcnt])]
    simp [exec, execPayloadByte, store_payload.mpr ⟨hbuf, rfl⟩]
  | @payloadLast b v hst hcnt hbuf hd =>
    rw [runToken_of_decode (i := .payloadLast b) (by simp [decodeToken, hst, hcnt])]
    simp [exec, execPayloadLast, store_payload.mpr ⟨hbuf, rfl⟩, hd]
  | eosRdpay hst => exact runToken_of_decode (i := .eosRdpay) (by simp [decodeToken, hst])

theorem exec_payloadByte_accepted {b : Byte} {s u : State} (h : exec (.payloadByte b) (accept (.byte b) s) = .next u) :
    s.cnt.toNat < Config.bufDepth ∧ u = setSt .rdpay (setCnt (s.cnt + 1) (payloadStored b s)) := by
  obtain ⟨v, hstore, hu⟩ := andThen_eq_next h
  obtain ⟨hbuf, rfl⟩ := store_payload.mp hstore
  cases hu
  exact ⟨hbuf, rfl⟩

theorem exec_payloadLast_accepted {b : Byte} {s u : State} (h : exec (.payloadLast b) (accept (.byte b) s) = .next u) :
    s.cnt.toNat < Config.bufDepth ∧ ∃ v, dispatch (payloadStored b s) = .next v ∧ u = setSt .seek v := by
  obtain ⟨v, hstore, hrest⟩ := andThen_eq_next h
  obtain ⟨hbuf, rfl⟩ := store_payload.mp hstore
  obtain ⟨w, hd, hu⟩ := andThen_eq_next hrest
  cases hu
  exact ⟨hbuf, w, hd, rfl⟩

/-- The rows are all that consuming a token can do. -/
theorem tokenStep_of_runToken {s u : State} {t : Token} (h : runToken t s = .next u) : TokenStep s t u := by
  obtain ⟨i, hdec, hex⟩ := runToken_next h
  cases hst : s.st with
  | seek =>
    cases t with
    | eos =>
      cases (by simpa [decodeToken, hst] using hdec : Instr.eosSeek = i)
      cases hex
      exact .eosSeek hst
    | byte b =>
      simp only [decodeToken, hst] at hdec
      split at hdec <;> rename_i hb <;> cases hdec <;> cases hex
      · subst hb
        exact .marker hst
      · exact .noise hst hb
  | rdlen =>
    cases t with
    | eos =>
      cases (by simpa [decodeToken, hst] using hdec : Instr.eosRdlen = i)
      cases hex
      exact .eosRdlen hst
    | byte b =>
      simp only [decodeToken, hst] at hdec
      split at hdec
      · cases hdec; cases hex
        exact .oversize hst ‹_›
      · have hmax : b.toNat ≤ Config.maxLen := Nat.le_of_not_lt ‹_›
        split at hdec <;> rename_i hb <;> cases hdec <;> cases hex
        · subst hb
          exact .empty hst
        · have hpos : 1 ≤ b.toNat := Nat.one_le_iff_ne_zero.mpr fun h0 => hb (BitVec.eq_of_toNat_eq h0)
          rw [setWidth_lengthField hmax]
          exact .length hst hpos hmax
  | rdpay =>
    cases t with
    | eos =>
      cases (by simpa [decodeToken, hst] using hdec : Instr.eosRdpay = i)
      cases hex
      exact .eosRdpay hst
    | byte b =>
      simp only [decodeToken, hst] at hdec
      split at hdec
      · cases hdec
        obtain ⟨hbuf, rfl⟩ := exec_payloadByte_accepted hex
        exact .payloadByte hst ‹_› hbuf
      · split at hdec
        · cases hdec
          obtain ⟨hbuf, v, hd, rfl⟩ := exec_payloadLast_accepted hex
          exact .payloadLast hst ‹_› hbuf hd
        · cases hdec
  | done => cases t <;> simp [decodeToken, hst] at hdec

/-! ### The pins -/

theorem drivePins_release {s : State} (v : BitVec 2) (m : Bool) (h : s.rst = true) :
    drivePins false v m s = releaseReset v m s := by
  simp [drivePins, h]

theorem drivePins_ignored {s : State} (v : BitVec 2) (m : Bool) (h : s.rst = false) : drivePins false v m s = s := by
  simp [drivePins, h]

/-! ### The step -/

theorem step_ready {s : State} (h : rxReady s = true) : step s = readyCycle s := by simp [step, cycle, h]

theorem step_waiting {s : State} (h : rxReady s = false) : step s = waitingCycle s := by simp [step, cycle, h]

/-- A drive of the pins that is next among the inputs takes effect, whether or not the core is ready (R42). -/
theorem step_pins {s : State} {r : Bool} {v : BitVec 2} {m : Bool} {is : List Input}
    (h : s.inputs = .pins r v m :: is) : step s = .next (drivePins r v m (setInputs is s)) := by
  cases hr : rxReady s with
  | true => simp [step_ready hr, readyCycle, h]
  | false => simp [step_waiting hr, waitingCycle, h, takePins]

/-- What one step can do to the state: only inputs pass, a token runs its row, a reset inside a step leaves the
reset values, or the first drive of the pins takes effect. -/
inductive StepEffect (s : State) : State → Prop where
  | wait (is : List Input) : StepEffect s (setInputs is s)
  | token {t : Token} {u : State} (is : List Input) (hrst : s.rst = false) (hrow : TokenStep (setInputs is s) t u) :
      StepEffect s u
  | cut {r : State} (hverb : r.verb = s.verb) (hmirror : r.mirrorEn = s.mirrorEn) : StepEffect s (enterReset r)
  | pins {r : Bool} {v : BitVec 2} {m : Bool} {is : List Input} (htake : takePins s.inputs = some ((r, v, m), is)) :
      StepEffect s (drivePins r v m (setInputs is s))

theorem stepEffect_of_step {s u : State} (h : step s = .next u) : StepEffect s u := by
  rcases step_next h with
    ⟨hr, ⟨_, rfl⟩ | ⟨t, is, _, hrun⟩ | ⟨t, n, is, _, hcut⟩ | ⟨r, v, m, is, hin, rfl⟩ | ⟨is, _, rfl⟩⟩ |
    ⟨_, ⟨_, rfl⟩ | ⟨r, v, m, is, htake, rfl⟩⟩
  · exact .wait u.inputs
  · exact .token is (rxReady_iff.mp hr).1 (tokenStep_of_runToken hrun)
  · obtain ⟨done, _, rfl⟩ := runCut_next hcut
    exact .cut rfl rfl
  · exact .pins (by rw [hin, takePins])
  · exact .wait is
  · exact .wait u.inputs
  · exact .pins htake

end Sys2Proof.Machine
end

section
/-! The invariants of 10_state.md R35: the reset state meets them and every step keeps them. -/

namespace Sys2Proof.Safety

open Sys2Proof.Machine

/-- Settles O9: in SEEK the reset state has no frame to speak of, and its buffer is empty. -/
theorem resetMeetsInvariant : Obligations.ResetMeetsInvariant where
  frame h := nomatch h
  stored h := nomatch h
  stage := ⟨by decide, fun _ => rfl⟩
  buffer := Memory.reset_wf
  held h := nomatch h

section
variable {s : State}

/-! ### The operations that keep the invariants -/

theorem Inv.setInputs (h : Inv s) (is : List Input) : Inv (setInputs is s) :=
  ⟨h.frame, h.stored, h.stage, h.buffer, h.held⟩

theorem Inv.addLog (h : Inv s) (ts : List Transaction) : Inv (s.addLog ts) :=
  ⟨h.frame, h.stored, h.stage, h.buffer, h.held⟩

/-- Outside RDPAY the invariants say nothing of `LEN`, `CNT` and the bytes of `BUF` but its canonical form (R36). -/
theorem Inv.of_not_rdpay (hst : s.st ≠ .rdpay) (hstage : s.eosAt ≠ .done ∧ (s.st ≠ .done → s.eosAt = .seek))
    (hbuf : s.buf.wf) (hrst : s.rst = false) : Inv s :=
  ⟨fun h => absurd h hst, fun h => absurd h hst, hstage, hbuf, fun h => by simp [hrst] at h⟩

/-- A row that goes to SEEK or RDLEN. -/
theorem Inv.scan (h : Inv s) {x : ScanState} (hx : x = .seek ∨ x = .rdlen) (hrst : s.rst = false)
    (hrun : s.st ≠ .done) : Inv (setSt x s) := by
  refine .of_not_rdpay ?_ ⟨h.stage.1, fun _ => h.stage.2 hrun⟩ h.buffer hrst
  rcases hx with rfl | rfl <;> exact nofun

/-- End of stream met in `x` (R123, R124, R130). -/
theorem Inv.endOfStream (h : Inv s) {x : ScanState} (hx : x ≠ .done) (hrst : s.rst = false) :
    Inv (endOfStream x s) :=
  .of_not_rdpay nofun ⟨hx, fun hd => absurd rfl hd⟩ h.buffer hrst

/-- A payload begins with `LEN` in 1 to 62 and no byte counted (R127). -/
theorem Inv.beginPayload (h : Inv s) {l : BitVec 6} (hpos : 1 ≤ l.toNat) (hmax : l.toNat ≤ Config.maxLen)
    (hrst : s.rst = false) (hrun : s.st ≠ .done) : Inv (setSt .rdpay (setCnt 0 (setLen l s))) where
  frame _ := ⟨hpos, hmax, hpos⟩
  stored _ := by simp
  stage := ⟨h.stage.1, fun _ => h.stage.2 hrun⟩
  buffer := h.buffer
  held hr := by simp [hrst] at hr

/-- Storing a payload byte at `CNT` leaves the bytes counted so far and the canonical form (R51). -/
theorem Inv.payloadStored (h : Inv s) (b : Byte) (hbuf : s.cnt.toNat < Config.bufDepth) :
    Inv (payloadStored b s) where
  frame := h.frame
  stored hst i hi := by
    have hi : i < s.cnt.toNat := hi
    rw [payloadStored_buf, Memory.read_write_other _ b (Nat.ne_of_lt hi)]
    exact h.stored hst i hi
  stage := h.stage
  buffer := Memory.write_wf b hbuf h.buffer
  held := h.held

/-- A payload byte that is not the last is stored and then counted (R128). -/
theorem Inv.countPayload (h : Inv s) (b : Byte) (hst : s.st = .rdpay) (hcnt : s.cnt.toNat + 1 < s.len.toNat)
    (hbuf : s.cnt.toNat < Config.bufDepth) (hrst : s.rst = false) :
    Inv (setSt .rdpay (setCnt (s.cnt + 1) (Machine.payloadStored b s))) where
  frame _ := by
    obtain ⟨hpos, hmax, _⟩ := h.frame hst
    exact ⟨hpos, hmax, (cnt_succ hcnt).trans_lt hcnt⟩
  stored _ i hi := by
    have hi : i < s.cnt.toNat + 1 := cnt_succ hcnt ▸ hi
    by_cases hlast : i = s.cnt.toNat
    · simp [hlast, Memory.read_write_same]
    · exact (h.payloadStored b hbuf).stored hst i (Nat.lt_of_le_of_ne (Nat.le_of_lt_succ hi) hlast)
  stage := ⟨h.stage.1, fun _ => h.stage.2 (by simp [hst])⟩
  buffer := Memory.write_wf b hbuf h.buffer
  held hr := by simp [hrst] at hr

/-- Whatever the state was, `rst` asserted leaves one that meets the invariants (R330). -/
theorem inv_enterReset (s : State) : Inv (enterReset s) where
  frame h := nomatch h
  stored h := nomatch h
  stage := ⟨nofun, fun _ => rfl⟩
  buffer := Memory.reset_wf
  held _ := ⟨rfl, rfl, rfl⟩

/-- At its release `rst` has held ST in SEEK, so a run begins outside a frame (R42, R330). -/
theorem Inv.releaseReset (h : Inv s) (hrst : s.rst = true) (v : BitVec 2) (m : Bool) : Inv (releaseReset v m s) := by
  have hseek : s.st = .seek := (h.held hrst).1
  refine .of_not_rdpay ?_ h.stage h.buffer rfl
  simp [hseek]

theorem Inv.drivePins (h : Inv s) (r : Bool) (v : BitVec 2) (m : Bool) : Inv (drivePins r v m s) := by
  rcases drivePins_cases r v m s with ⟨_, hd⟩ | ⟨_, hrst, hd⟩ | ⟨_, _, hd⟩ <;> rw [hd]
  · exact inv_enterReset s
  · exact h.releaseReset hrst v m
  · exact h

end

/-- Every row of the transition table keeps the invariants. -/
theorem Inv.tokenStep {s u : State} {t : Token} (h : Inv s) (hrst : s.rst = false) (hrow : TokenStep s t u) :
    Inv u := by
  cases hrow with
  | noise hst _ => exact ((h.addLog _).addLog _).scan (.inl rfl) hrst (by simp [hst])
  | marker hst => exact ((h.addLog _).addLog _).scan (.inr rfl) hrst (by simp [hst])
  | eosSeek _ => exact (h.addLog _).endOfStream nofun hrst
  | eosRdlen _ => exact (h.addLog _).endOfStream nofun hrst
  | oversize hst _ => exact (((h.addLog _).addLog _).addLog _).scan (.inl rfl) hrst (by simp [hst])
  | empty hst => exact (((h.addLog _).addLog _).addLog _).scan (.inl rfl) hrst (by simp [hst])
  | @length b hst hpos hmax =>
    have hb := toNat_lengthField hmax
    exact ((h.addLog _).addLog _).beginPayload (hb ▸ hpos) (hb ▸ hmax) hrst (by simp [hst])
  | payloadByte hst hcnt hbuf => exact h.countPayload _ hst hcnt hbuf hrst
  | payloadLast hst _ hbuf hd =>
    obtain ⟨ts, rfl, _⟩ := dispatch_reports hd
    exact ((h.payloadStored _ hbuf).addLog ts).scan (.inl rfl) hrst (by simp [hst])
  | eosRdpay _ => exact (h.addLog _).endOfStream nofun hrst

/-- Settles O10: the cases of a step are a wait, a token's row, a reset inside a step, and a drive of the pins. -/
theorem stepKeepsInvariant : Obligations.StepKeepsInvariant := by
  intro s u h hstep
  cases stepEffect_of_step hstep with
  | wait is => exact h.setInputs is
  | token is hrst hrow => exact (h.setInputs is).tokenStep hrst hrow
  | cut _ _ => exact inv_enterReset _
  | pins _ => exact (h.setInputs _).drivePins _ _ _

end Sys2Proof.Safety
end

section
/-! What writes each register (10_state.md R22, R23, R26, R27; 20_memory.md R51). -/

namespace Sys2Proof.Safety

open Sys2Proof.Machine

/-- What a token's row does to `LEN`, `CNT` and `BUF`: nothing, the beginning of a payload, or the store of a payload
byte at `CNT`. -/
theorem tokenStep_workingSet {s u : State} {t : Token} (h : TokenStep s t u) :
    (u.len = s.len ∧ u.cnt = s.cnt ∧ u.buf = s.buf) ∨
    (s.st = .rdlen ∧ u.buf = s.buf ∧
      ∃ b : Byte, t = .byte b ∧ 1 ≤ b.toNat ∧ b.toNat ≤ Config.maxLen ∧ u.len = b.setWidth 6) ∨
    (s.st = .rdpay ∧ u.len = s.len ∧ s.cnt.toNat < Config.bufDepth ∧
      ∃ b : Byte, t = .byte b ∧ u.buf = s.buf.write s.cnt.toNat b) := by
  cases h with
  | length hst hpos hmax => exact .inr (.inl ⟨hst, rfl, _, rfl, hpos, hmax, rfl⟩)
  | payloadByte hst _ hbuf => exact .inr (.inr ⟨hst, rfl, hbuf, _, rfl, rfl⟩)
  | payloadLast hst _ hbuf hd =>
    obtain ⟨ts, rfl, _⟩ := dispatch_reports hd
    exact .inr (.inr ⟨hst, rfl, hbuf, _, rfl, rfl⟩)
  | noise | marker | eosSeek | eosRdlen | oversize | empty | eosRdpay => exact .inl ⟨rfl, rfl, rfl⟩

/-- A load looks at one offset of the buffer only. -/
theorem load_congr {s t : State} {i : Nat} (h : s.buf.read i = t.buf.read i) : load s i = load t i := by
  simp only [load, h]

/-- Settles O37: a token's row begins a payload, stores a payload byte, or leaves the three registers. -/
theorem workingSetWriters : Obligations.WorkingSetWriters := by
  intro s u t is hready hin hstep
  have hrun : runToken t (setInputs is s) = .next u := by simpa [step_ready hready, readyCycle, hin] using hstep
  rcases tokenStep_workingSet (tokenStep_of_runToken hrun) with
    ⟨hlen, hcnt, hbuf⟩ | ⟨hst, hbuf, b, rfl, hpos, hmax, hlen⟩ | ⟨hst, hlen, hdepth, b, rfl, hbuf⟩
  · exact ⟨fun h => absurd hlen h, fun h => absurd hcnt h, fun j h => absurd (load_congr (by rw [hbuf]; rfl)) h⟩
  · exact ⟨fun _ => ⟨hst, b, rfl, hpos, hmax, by rw [hlen, toNat_lengthField hmax]⟩, fun _ => .inl hst,
      fun j h => absurd (load_congr (by rw [hbuf]; rfl)) h⟩
  · refine ⟨fun h => absurd hlen h, fun _ => .inr hst, fun j h => ?_⟩
    by_cases hj : j = s.cnt.toNat
    · refine ⟨hst, hj, b, rfl, load_ok.mpr ⟨hj ▸ hdepth, ?_⟩⟩
      rw [hbuf, hj]
      exact Memory.read_write_same _ _ b
    · refine absurd (load_congr ?_) h
      rw [hbuf]
      exact Memory.read_write_other _ b hj

/-- No row of the transition table writes `VERB` or `MIRROR_EN` (R347). -/
theorem tokenStep_configuration {s u : State} {t : Token} (h : TokenStep s t u) :
    u.verb = s.verb ∧ u.mirrorEn = s.mirrorEn := by
  cases h with
  | payloadLast _ _ _ hd =>
    obtain ⟨ts, rfl, _⟩ := dispatch_reports hd
    exact ⟨rfl, rfl⟩
  | noise | marker | eosSeek | eosRdlen | oversize | empty | length | payloadByte | eosRdpay => exact ⟨rfl, rfl⟩

/-- Settles O38: of all that a step can do, only a drive of the pins that releases `rst` writes the two. -/
theorem configurationChangesOnlyAtReset : Obligations.ConfigurationChangesOnlyAtReset := by
  intro s u hstep
  cases stepEffect_of_step hstep with
  | wait is => exact .inl ⟨rfl, rfl⟩
  | token is _ hrow => exact .inl (tokenStep_configuration (s := setInputs is s) hrow)
  | cut hverb hmirror => exact .inl ⟨hverb, hmirror⟩
  | @pins r v m is htake =>
    rcases drivePins_cases r v m (setInputs is s) with ⟨_, hd⟩ | ⟨rfl, hrst, hd⟩ | ⟨_, _, hd⟩ <;> rw [hd]
    · exact .inl ⟨rfl, rfl⟩
    · exact .inr ⟨hrst, rfl, is, htake⟩
    · exact .inl ⟨rfl, rfl⟩

/-- Settles O40: the two ways in which pins driven with `rst` released act, by what `rst` was. -/
theorem releasedResetSamplesThePins : Obligations.ReleasedResetSamplesThePins := by
  refine ⟨fun s v m is hrst hin => ?_, fun s v m is hrst hin => ?_⟩
  · rw [step_pins hin, drivePins_release v m (s := setInputs is s) hrst]
    rfl
  · rw [step_pins hin, drivePins_ignored v m (s := setInputs is s) hrst]
    rfl

end Sys2Proof.Safety
end

section
/-! Noninterference: what `LEN`, `CNT` and `BUF` hold outside RDPAY is never seen (10_state.md R36,
70_reset_and_hazards.md R350). -/

namespace Sys2Proof.Safety

open Sys2Proof.Machine

/-! ### Runs -/

theorem steps_succ (n : Nat) (s : State) : steps (n + 1) s = andThen (step s) (steps n) := by
  have hcore : core.step s = step s := rfl
  simp only [steps, Host.Core.run, hcore]
  cases step s <;> rfl

/-- A relation that every step keeps is kept by every run. -/
theorem steps_simulation {R : State → State → Prop}
    (hstep : ∀ {s t u : State}, R s t → step s = .next u → ∃ v, step t = .next v ∧ R u v)
    (n : Nat) {s t u : State} (hR : R s t) (h : steps n s = .next u) : ∃ v, steps n t = .next v ∧ R u v := by
  induction n generalizing s t with
  | zero => cases h; exact ⟨t, rfl, hR⟩
  | succ n ih =>
    rw [steps_succ] at h
    obtain ⟨s₁, hs, hrest⟩ := andThen_eq_next h
    obtain ⟨t₁, ht, hR₁⟩ := hstep hR hs
    obtain ⟨v, hv, hRv⟩ := ih hR₁ hrest
    exact ⟨v, by rw [steps_succ, ht]; exact hv, hRv⟩

/-! ### The relation of two machines that differ in dead values only -/

/-- `s` with other values of `LEN`, `CNT` and `BUF`. -/
def withWorkingSet (l c : BitVec 6) (m : Memory) (s : State) : State := { s with len := l, cnt := c, buf := m }

/-- `t` is `s` but for `LEN`, `CNT` and `BUF`, and in RDPAY the two hold the same payload so far. The canonical forms
of the buffers may still differ there, in the bytes that no token of the frame has written. -/
inductive Twin (s : State) : State → Prop where
  | mk (l c : BitVec 6) (m : Memory)
      (hpay : s.st = .rdpay → l = s.len ∧ c = s.cnt ∧ ∀ i < s.cnt.toNat, m.read i = s.buf.read i) :
      Twin s (withWorkingSet l c m s)

theorem Twin.refl (s : State) : Twin s s :=
  .mk s.len s.cnt s.buf fun _ => ⟨rfl, rfl, fun _ _ => rfl⟩

theorem Twin.of_seek {s t : State} (hseek : s.st = .seek) (h : SameButDead s t) : Twin s t := by
  have hpay : s.st = .rdpay → t.len = s.len ∧ t.cnt = s.cnt ∧ ∀ i < s.cnt.toNat, t.buf.read i = s.buf.read i :=
    fun hst => by simp [hseek] at hst
  have ht : Twin s (withWorkingSet t.len t.cnt t.buf s) := .mk _ _ _ hpay
  rwa [show withWorkingSet t.len t.cnt t.buf s = t from h] at ht

/-- Loads look at the offsets of the range only. -/
theorem loadBytes_congr_range {s t : State} {i n : Nat} (h : ∀ j, i ≤ j → j < i + n → s.buf.read j = t.buf.read j) :
    loadBytes s i n = loadBytes t i n := by
  induction n generalizing i with
  | zero => rfl
  | succ n ih =>
    have hhead : load s i = load t i := load_congr (h i le_rfl (by omega))
    have htail : loadBytes s (i + 1) n = loadBytes t (i + 1) n := ih fun j h1 h2 => h j (by omega) (by omega)
    simp only [loadBytes, hhead, htail]

/-- A dispatch sees of the buffer only the payload, the offsets below `LEN`. -/
theorem dispatch_withWorkingSet {s u : State} {c : BitVec 6} {m : Memory} (hlen : 1 ≤ s.len.toNat)
    (hm : ∀ i < s.len.toNat, m.read i = s.buf.read i) (h : dispatch s = .next u) :
    dispatch (withWorkingSet s.len c m s) = .next (withWorkingSet s.len c m u) := by
  obtain ⟨ts, rfl, hsame⟩ := dispatch_reports h
  refine hsame _ rfl rfl rfl (load_congr (hm 0 hlen)) (loadBytes_congr_range fun j _ hj => hm j ?_)
  omega

/-- Twins still agree on the payload after each has stored the same byte at `CNT`. -/
theorem read_write_agree {m m' : Memory} {c : Nat} (b : Byte) (h : ∀ i < c, m.read i = m'.read i) :
    ∀ i < c + 1, (m.write c b).read i = (m'.write c b).read i := by
  intro i hi
  by_cases hc : i = c
  · simp [hc, Memory.read_write_same]
  · rw [Memory.read_write_other _ b hc, Memory.read_write_other _ b hc]
    exact h i (Nat.lt_of_le_of_ne (Nat.le_of_lt_succ hi) hc)

/-- Twins that consume the same token run the same row and stay twins. -/
theorem Twin.tokenStep {s t u : State} {k : Token} (h : Twin s t) (hrow : TokenStep s k u) :
    ∃ v, TokenStep t k v ∧ Twin u v := by
  obtain ⟨l, c, m, hpay⟩ := h
  cases hrow with
  | noise hst hb => exact ⟨_, .noise hst hb, .mk l c m nofun⟩
  | marker hst => exact ⟨_, .marker hst, .mk l c m nofun⟩
  | eosSeek hst => exact ⟨_, .eosSeek hst, .mk l c m nofun⟩
  | eosRdlen hst => exact ⟨_, .eosRdlen hst, .mk l c m nofun⟩
  | oversize hst hb => exact ⟨_, .oversize hst hb, .mk l c m nofun⟩
  | empty hst => exact ⟨_, .empty hst, .mk l c m nofun⟩
  | @length b hst hpos hmax =>
    exact ⟨_, .length hst hpos hmax,
      .mk (b.setWidth 6) 0 m fun _ => ⟨rfl, rfl, fun i hi => absurd hi (Nat.not_lt_zero i)⟩⟩
  | @payloadByte b hst hcnt hbuf =>
    obtain ⟨rfl, rfl, hm⟩ := hpay hst
    refine ⟨_, .payloadByte hst hcnt hbuf,
      .mk s.len (s.cnt + 1) (m.write s.cnt.toNat b) fun _ => ⟨rfl, rfl, fun i hi => ?_⟩⟩
    exact read_write_agree b hm i (cnt_succ hcnt ▸ hi)
  | @payloadLast b v hst hcnt hbuf hd =>
    obtain ⟨rfl, rfl, hm⟩ := hpay hst
    have hd' := dispatch_withWorkingSet (s := payloadStored b s) (c := s.cnt) (m := m.write s.cnt.toNat b)
      (hcnt ▸ Nat.le_add_left 1 _) (fun i hi => read_write_agree b hm i (hcnt ▸ hi)) hd
    exact ⟨_, .payloadLast hst hcnt hbuf hd', .mk s.len s.cnt (m.write s.cnt.toNat b) nofun⟩
  | eosRdpay hst => exact ⟨_, .eosRdpay hst, .mk l c m nofun⟩

theorem Twin.setInputs {s t : State} (h : Twin s t) (is : List Input) : Twin (setInputs is s) (setInputs is t) := by
  obtain ⟨l, c, m, hpay⟩ := h
  exact .mk l c m hpay

theorem Twin.drivePins {s t : State} (h : Twin s t) (r : Bool) (v : BitVec 2) (m : Bool) :
    Twin (drivePins r v m s) (drivePins r v m t) := by
  have hrst : t.rst = s.rst := by cases h; rfl
  rcases drivePins_cases r v m s with ⟨rfl, hd⟩ | ⟨rfl, hs, hd⟩ | ⟨rfl, hs, hd⟩ <;> rw [hd]
  · cases h
    exact .refl _
  · rw [drivePins_release v m (hrst.trans hs)]
    obtain ⟨l, c, m', hpay⟩ := h
    exact .mk l c m' hpay
  · rwa [drivePins_ignored v m (hrst.trans hs)]

theorem Twin.runToken {s t u : State} {k : Token} (h : Twin s t) (hrun : runToken k s = .next u) :
    ∃ v, runToken k t = .next v ∧ Twin u v := by
  obtain ⟨v, hrow, hv⟩ := h.tokenStep (tokenStep_of_runToken hrun)
  exact ⟨v, hrow.runToken_eq, hv⟩

/-- A reset inside a step leaves twins equal: it writes all three registers, and the transactions it cuts are the
same. -/
theorem Twin.runCut {s t u : State} {k : Token} {n : Nat} (h : Twin s t) (hcut : runCut k n s = .next u) :
    runCut k n t = .next u := by
  obtain ⟨done, hrun, rfl⟩ := runCut_next hcut
  obtain ⟨done', hrun', hdone⟩ := h.runToken hrun
  cases hdone
  cases h
  simp only [Machine.runCut, hrun', andThen_next]
  rfl

theorem Twin.step {s t u : State} (h : Twin s t) (hstep : step s = .next u) : ∃ v, step t = .next v ∧ Twin u v := by
  have hin : t.inputs = s.inputs := by cases h; rfl
  have hready : rxReady t = rxReady s := by cases h; rfl
  rcases step_next hstep with
    ⟨hr, ⟨hi, rfl⟩ | ⟨k, is, hi, hrun⟩ | ⟨k, n, is, hi, hcut⟩ | ⟨r, v, m, is, hi, rfl⟩ | ⟨is, hi, rfl⟩⟩ |
    ⟨hr, ⟨hi, rfl⟩ | ⟨r, v, m, is, hi, rfl⟩⟩
  · exact ⟨t, by simp [step_ready (hready.trans hr), readyCycle, hin, hi], h⟩
  · obtain ⟨v, hv, htwin⟩ := (h.setInputs is).runToken hrun
    exact ⟨v, by simp [step_ready (hready.trans hr), readyCycle, hin, hi, hv], htwin⟩
  · exact ⟨u, by simp [step_ready (hready.trans hr), readyCycle, hin, hi, (h.setInputs is).runCut hcut], .refl u⟩
  · exact ⟨_, step_pins (hin.trans hi), (h.setInputs is).drivePins r v m⟩
  · exact ⟨_, by simp [step_ready (hready.trans hr), readyCycle, hin, hi], h.setInputs is⟩
  · exact ⟨t, by simp [step_waiting (hready.trans hr), waitingCycle, hin, hi], h⟩
  · exact ⟨_, by simp [step_waiting (hready.trans hr), waitingCycle, hin, hi], (h.setInputs is).drivePins r v m⟩

/-- Settles O49: the two machines are twins, every step keeps twins, and twins show the same log, ST and EOS_AT. -/
theorem deadValuesAreNeverSeen : Obligations.DeadValuesAreNeverSeen := by
  intro n s t u _ _ hseek hdead hsteps
  obtain ⟨v, hv, htwin⟩ := steps_simulation Twin.step n (.of_seek hseek hdead) hsteps
  cases htwin
  exact ⟨_, hv, rfl, rfl, rfl⟩

end Sys2Proof.Safety
end

section
/-! The payload buffer (20_memory.md): loads of several bytes, the storing of a payload, and the order of the
transactions within a step. -/

namespace Sys2Proof.Safety

open Sys2Proof.Machine

/-! ### Loads of several bytes -/

theorem loadBytes_cons {s : State} {i n : Nat} {b : Byte} {bs : List Byte} (hb : load s i = .ok b)
    (hbs : loadBytes s (i + 1) n = .ok bs) : loadBytes s i (n + 1) = .ok (b :: bs) :=
  loadBytes_succ_ok.mpr ⟨b, bs, hb, hbs, rfl⟩

theorem memRead_of_loadBytes {s : State} {i n : Nat} {bs : List Byte} (h : loadBytes s i n = .ok bs) :
    memRead s i n = .ok (bigEndian bs) := by
  rw [memRead, h]
  rfl

/-- Settles O35: the bytes of each load are collected one by one, and their digits to base 256 are summed. -/
theorem loadsAreBigEndian : Obligations.LoadsAreBigEndian := by
  intro s i b0 b1 b2 b3 h0 h1 h2 h3
  have one : loadBytes s i 1 = .ok [b0] := loadBytes_cons h0 rfl
  have two : loadBytes s i 2 = .ok [b0, b1] := loadBytes_cons h0 (loadBytes_cons h1 rfl)
  have four : loadBytes s i 4 = .ok [b0, b1, b2, b3] :=
    loadBytes_cons h0 (loadBytes_cons h1 (loadBytes_cons h2 (loadBytes_cons h3 rfl)))
  refine ⟨?_, ?_, ?_⟩
  · simp [memRead_of_loadBytes one, bigEndian]
  · simp [memRead_of_loadBytes two, bigEndian]
  · rw [memRead_of_loadBytes four]
    simp only [bigEndian, List.foldl_cons, List.foldl_nil, Except.ok.injEq]
    omega

/-! ### A run of payload bytes -/

theorem read_fillBuf_of_lt {m : Memory} {i j : Nat} {bs : List Byte} (h : j < i) :
    (fillBuf m i bs).read j = m.read j := by
  induction bs generalizing m i with
  | nil => rfl
  | cons b bs ih => rw [fillBuf, ih (Nat.lt_succ_of_lt h), Memory.read_write_other m b (Nat.ne_of_lt h)]

/-- The bytes written to a range of the buffer are what the range's load answers. -/
theorem loadBytes_fillBuf {s : State} {m : Memory} {i : Nat} {bs : List Byte} (hbuf : s.buf = fillBuf m i bs)
    (hdepth : i + bs.length ≤ Config.bufDepth) : loadBytes s i bs.length = .ok bs := by
  induction bs generalizing m i with
  | nil => rfl
  | cons b bs ih =>
    rw [List.length_cons] at hdepth ⊢
    have hread : s.buf.read i = some b := by
      rw [hbuf, fillBuf, read_fillBuf_of_lt (Nat.lt_succ_self i), Memory.read_write_same]
    exact loadBytes_cons (load_ok.mpr ⟨by omega, hread⟩) (ih hbuf (by omega))

/-- The state after the payload bytes `bs`, none of them the last, with `is` still to come: each was accepted,
mirrored, stored and counted (R128). -/
def payloadCollected (bs : List Byte) (is : List Input) (s : State) : State :=
  { s with
    cnt := s.cnt + BitVec.ofNat 6 bs.length
    buf := fillBuf s.buf s.cnt.toNat bs
    inputs := is
    log := s.log ++ bs.flatMap fun b => .rx (.byte b) :: mirrored s.mirrorEn b }

theorem payloadCollected_nil (s : State) : payloadCollected [] s.inputs s = s := by
  simp [payloadCollected, fillBuf]

theorem payloadCollected_cons {s : State} {b : Byte} {bs : List Byte} {is js : List Input}
    (h : s.cnt.toNat + 1 < s.len.toNat) :
    payloadCollected bs is (payloadCollected [b] js s) = payloadCollected (b :: bs) is s := by
  have hone : s.cnt + BitVec.ofNat 6 [b].length = s.cnt + 1 := rfl
  have hcnt : s.cnt + 1 + BitVec.ofNat 6 bs.length = s.cnt + BitVec.ofNat 6 (b :: bs).length := by
    rw [List.length_cons, Nat.add_comm, BitVec.ofNat_add, BitVec.add_assoc]
    rfl
  simp only [payloadCollected, hone, hcnt, cnt_succ h, fillBuf, List.flatMap_cons, List.flatMap_nil, List.append_nil,
    List.append_assoc]

/-- `CNT` counts the bytes; below `LEN` it does not wrap (R23). -/
theorem payloadCollected_cnt {s : State} {bs : List Byte} {is : List Input}
    (h : s.cnt.toNat + bs.length < s.len.toNat) :
    (payloadCollected bs is s).cnt.toNat = s.cnt.toNat + bs.length := by
  have hlen := s.len.isLt
  rw [payloadCollected, BitVec.toNat_add, BitVec.toNat_ofNat]
  omega

/-- A ready core whose next input is a token consumes it (R120). -/
theorem step_token {s : State} {t : Token} {is : List Input} (hready : rxReady s = true)
    (hin : s.inputs = .token t :: is) : step s = runToken t (setInputs is s) := by
  simp only [step_ready hready, readyCycle, hin]

/-- A payload byte that is not the last is collected. -/
theorem step_payloadByte {s : State} {b : Byte} {is : List Input} (hrst : s.rst = false) (hst : s.st = .rdpay)
    (hcnt : s.cnt.toNat + 1 < s.len.toNat) (hmax : s.len.toNat ≤ Config.maxLen)
    (hin : s.inputs = .token (.byte b) :: is) : step s = .next (payloadCollected [b] is s) := by
  have hready : rxReady s = true := rxReady_iff.mpr ⟨hrst, by simp [hst]⟩
  have hbuf : s.cnt.toNat < Config.bufDepth := (Nat.lt_of_succ_lt hcnt).trans_le hmax
  have hrow : TokenStep (setInputs is s) (.byte b)
      (setSt .rdpay (setCnt (s.cnt + 1) (payloadStored b (setInputs is s)))) := .payloadByte hst hcnt hbuf
  have hcollected : setSt .rdpay (setCnt (s.cnt + 1) (payloadStored b (setInputs is s))) =
      payloadCollected [b] is s := by
    simp only [payloadCollected, List.flatMap_singleton, fillBuf, ← hst]
    simp [setSt, setCnt, setInputs, payloadStored, mirror, accept, State.addLog]
  rw [step_token hready hin, hrow.runToken_eq, hcollected]

/-- Fewer bytes than `LEN` still expects are all collected. -/
theorem steps_payloadBytes {s : State} {bs : List Byte} {is : List Input} (hrst : s.rst = false)
    (hst : s.st = .rdpay) (hcnt : s.cnt.toNat + bs.length < s.len.toNat) (hmax : s.len.toNat ≤ Config.maxLen)
    (hin : s.inputs = bytesIn bs ++ is) : steps bs.length s = .next (payloadCollected bs is s) := by
  induction bs generalizing s with
  | nil =>
    obtain rfl : s.inputs = is := hin
    rw [payloadCollected_nil]
    rfl
  | cons b bs ih =>
    rw [List.length_cons] at hcnt ⊢
    have hone : s.cnt.toNat + 1 < s.len.toNat := by omega
    have hrest : (payloadCollected [b] (bytesIn bs ++ is) s).cnt.toNat + bs.length < s.len.toNat := by
      rw [payloadCollected_cnt hone, List.length_singleton]
      omega
    rw [steps_succ, step_payloadByte (is := bytesIn bs ++ is) hrst hst hone hmax hin, andThen_next,
      ih (s := payloadCollected [b] (bytesIn bs ++ is) s) hrst hst hrest hmax rfl, payloadCollected_cons hone]

theorem reports_append (xs ys : List Transaction) : reports (xs ++ ys) = reports xs ++ reports ys :=
  List.filterMap_append

/-- RX and MIR transactions are no reports. -/
theorem reports_received (m : Bool) (bs : List Byte) :
    reports (bs.flatMap fun b => .rx (.byte b) :: mirrored m b) = [] := by
  induction bs with
  | nil => rfl
  | cons b bs ih =>
    have hhead : reports (.rx (.byte b) :: mirrored m b) = [] := by cases m <;> rfl
    rw [List.flatMap_cons, reports_append, hhead, ih, List.append_nil]

/-- While RDPAY lasts `rst` is released, since an asserted `rst` holds ST in SEEK (R42). -/
theorem Inv.rst_of_rdpay {s : State} (h : Inv s) (hst : s.st = .rdpay) : s.rst = false := by
  rw [Bool.eq_false_iff]
  intro hrst
  obtain ⟨hseek, _⟩ := h.held hrst
  simp [hst] at hseek

/-- Settles O23: the bytes are collected from `CNT` = 0 on, all of them at offsets of the buffer. -/
theorem payloadIsStoredInArrivalOrder : Obligations.PayloadIsStoredInArrivalOrder := by
  intro s bs is h hst hcnt hlen hin
  obtain ⟨_, hmax, _⟩ := h.frame hst
  have hzero : s.cnt.toNat = 0 := by rw [hcnt]; rfl
  refine ⟨payloadCollected bs is s, steps_payloadBytes (h.rst_of_rdpay hst) hst (by omega) hmax hin, hst, rfl, ?_,
    loadBytes_fillBuf (m := s.buf) ?_ ?_, ?_⟩
  · rw [payloadCollected_cnt (by omega), hzero, Nat.zero_add]
  · simp only [payloadCollected, hzero]
  · have hdepth : Config.bufDepth = Config.maxLen := rfl
    omega
  · simp only [payloadCollected, reports_append, reports_received, List.append_nil]

/-! ### The order within a step -/

/-- What is transferred of some events is reports only. -/
theorem flatMap_reported_eq_map (v : BitVec 2) (es : List Event) :
    ∃ rs : List Report, es.flatMap (reported v) = rs.map .rep := by
  induction es with
  | nil => exact ⟨[], rfl⟩
  | cons e es ih =>
    obtain ⟨rs, hrs⟩ := ih
    rw [List.flatMap_cons, hrs]
    rcases reported_cases v e with he | he | he <;> rw [he]
    · exact ⟨rs, rfl⟩
    · exact ⟨.kindOnly e.kind :: rs, rfl⟩
    · exact ⟨.full e :: rs, rfl⟩

theorem raise_log_reports (e : Event) (s : State) :
    ∃ rs : List Report, (raise e s).log = s.log ++ rs.map .rep := by
  obtain ⟨rs, hrs⟩ := flatMap_reported_eq_map s.verb [e]
  exact ⟨rs, by rw [← hrs, List.flatMap_singleton, raise_log]⟩

/-- A dispatch sends reports only: RAW, and what its row raises (R153, R154). -/
theorem dispatch_log_reports {s u : State} (h : dispatch s = .next u) :
    ∃ rs : List Report, u.log = s.log ++ rs.map .rep := by
  obtain ⟨ty, tail, _, _, hrun⟩ := dispatch_next h
  obtain ⟨es, hes⟩ := runRow_raises ty tail s
  obtain ⟨rs, hrs⟩ := flatMap_reported_eq_map s.verb (.raw s.len (ty :: tail) :: es)
  cases (hes (raise _ s) rfl).symm.trans hrun
  exact ⟨rs, by rw [← hrs]; simp [raiseAll_eq]⟩

/-- What the step of a token transfers on MIR: the byte, unless it is noise (R121, R268). -/
def tokenMirrored (s : State) : Token → List Transaction
  | .eos => []
  | .byte b => if s.st = .seek ∧ b ≠ Config.marker then [] else mirrored s.mirrorEn b

theorem tokenMirrored_noise {s : State} {b : Byte} (hst : s.st = .seek) (hb : b ≠ Config.marker) :
    tokenMirrored s (.byte b) = [] :=
  if_pos ⟨hst, hb⟩

theorem tokenMirrored_marker (s : State) :
    tokenMirrored s (.byte Config.marker) = mirrored s.mirrorEn Config.marker :=
  if_neg fun h => h.2 rfl

theorem tokenMirrored_attempt {s : State} (b : Byte) (hst : s.st ≠ .seek) :
    tokenMirrored s (.byte b) = mirrored s.mirrorEn b :=
  if_neg fun h => hst h.1

theorem tokenMirrored_byte (s : State) (b : Byte) :
    tokenMirrored s (.byte b) =
      if s.mirrorEn = true ∧ ¬(s.st = .seek ∧ b ≠ Config.marker) then [.mir b] else [] := by
  by_cases hnoise : s.st = .seek ∧ b ≠ Config.marker
  · rw [tokenMirrored, if_pos hnoise, if_neg fun h => h.2 hnoise]
  · simp only [tokenMirrored, mirrored, hnoise, not_false_eq_true, and_true, if_false]

/-- The transactions of each row of the transition table, in their order (R65). -/
theorem tokenStep_log {s u : State} {t : Token} (h : TokenStep s t u) :
    ∃ rs : List Report, u.log = s.log ++ [.rx t] ++ tokenMirrored s t ++ rs.map .rep := by
  cases h with
  | @noise b hst hb =>
    rw [tokenMirrored_noise hst hb, List.append_nil]
    exact raise_log_reports _ (accept (.byte b) s)
  | marker hst => exact ⟨[], by rw [tokenMirrored_marker]; simp⟩
  | eosSeek | eosRdlen | eosRdpay => exact ⟨[], by simp [tokenMirrored]⟩
  | @oversize b hst _ =>
    rw [tokenMirrored_attempt b (by simp [hst])]
    exact raise_log_reports _ (mirror b (accept (.byte b) s))
  | empty hst =>
    rw [tokenMirrored_attempt 0 (by simp [hst])]
    exact raise_log_reports _ (mirror 0 (accept (.byte 0) s))
  | @length b hst _ _ => exact ⟨[], by rw [tokenMirrored_attempt b (by simp [hst])]; simp⟩
  | @payloadByte b hst _ _ => exact ⟨[], by rw [tokenMirrored_attempt b (by simp [hst])]; simp⟩
  | @payloadLast b v hst _ _ hd =>
    rw [tokenMirrored_attempt b (by simp [hst])]
    exact dispatch_log_reports hd

/-- Settles O44: the step of a ready core is the row of its token. -/
theorem orderWithinAStep : Obligations.OrderWithinAStep := by
  intro s u t is hready hin hstep
  obtain ⟨rs, hrs⟩ := tokenStep_log (tokenStep_of_runToken ((step_token hready hin).symm.trans hstep))
  refine ⟨rs, hrs.trans ?_⟩
  cases t with
  | eos => rfl
  | byte b => rw [tokenMirrored_byte]; rfl

end Sys2Proof.Safety
end

section
/-! The encoding (30_encoding.md): the decoder and the encoder are inverse to each other, row by row for the tokens
and by the parts of a frame for the FRAME rows. -/

namespace Sys2Proof

/-! ### The constraints of the rows -/

theorem tailFault_eq_none {tail : List Byte} : tailFault tail = none ↔ tail.length + 1 ≤ Config.maxLen := by
  simp [tailFault]

theorem wellFormed_noise {b : Byte} : (Instr.noise b).WellFormed ↔ b ≠ Config.marker := by
  simp [Instr.WellFormed, Instr.fault]

theorem wellFormed_oversize {b : Byte} : (Instr.oversize b).WellFormed ↔ Config.maxLen < b.toNat := by
  simp [Instr.WellFormed, Instr.fault]

theorem wellFormed_length {l : BitVec 6} : (Instr.length l).WellFormed ↔ l ≠ 0 ∧ l.toNat ≤ Config.maxLen := by
  simp only [Instr.WellFormed, Instr.fault]
  split_ifs with hzero hmax
  · simp [hzero]
  · simp [Nat.not_le.mpr hmax]
  · exact iff_of_true rfl ⟨hzero, Nat.le_of_not_lt hmax⟩

theorem wellFormed_unknown {t : Byte} {tail : List Byte} :
    (Instr.unknown t tail).WellFormed ↔ t ∉ knownTypes ∧ tail.length + 1 ≤ Config.maxLen := by
  simp only [Instr.WellFormed, Instr.fault]
  split_ifs with hknown
  · simp [hknown]
  · rw [tailFault_eq_none, and_iff_right hknown]

/-! ### The TOKEN rows -/

/-- The length byte of LENGTH is read back: its six bits are the field `L`, and it is neither OVERSIZE nor EMPTY
(R99, R100). -/
theorem decodeToken_length {l : BitVec 6} {len cnt : BitVec 6} (h : (Instr.length l).WellFormed) :
    decodeToken .rdlen len cnt (.byte (l.setWidth 8)) = .ok (.length l) := by
  obtain ⟨hpos, hmax⟩ := wellFormed_length.mp h
  have hbyte : (l.setWidth 8).toNat = l.toNat := by
    rw [BitVec.toNat_setWidth]
    omega
  have hne : l.setWidth 8 ≠ 0 := fun h0 => hpos (BitVec.eq_of_toNat_eq (by rw [← hbyte, h0]; rfl))
  have hfield : (l.setWidth 8).setWidth 6 = l := BitVec.setWidth_setWidth_of_le l (by decide)
  simp only [decodeToken, hbyte, Nat.not_lt.mpr hmax, hne, hfield, if_false]

/-- What a token decodes to is the well-formed instruction of that view which the token encodes (R105, R137). -/
theorem encode_of_decodeToken {st : ScanState} {len cnt : BitVec 6} {t : Token} {i : Instr}
    (h : decodeToken st len cnt t = .ok i) :
    encode i = [t] ∧ i.WellFormed ∧ i.readIn (.token st len cnt) = true := by
  cases st with
  | seek =>
    cases t with
    | eos => cases h; exact ⟨rfl, rfl, rfl⟩
    | byte b =>
      simp only [decodeToken] at h
      split at h <;> rename_i hb <;> cases h
      · subst hb
        exact ⟨rfl, rfl, rfl⟩
      · exact ⟨rfl, wellFormed_noise.mpr hb, rfl⟩
  | rdlen =>
    cases t with
    | eos => cases h; exact ⟨rfl, rfl, rfl⟩
    | byte b =>
      simp only [decodeToken] at h
      split at h
      · cases h
        exact ⟨rfl, wellFormed_oversize.mpr ‹_›, rfl⟩
      · have hmax : b.toNat ≤ Config.maxLen := Nat.le_of_not_lt ‹_›
        split at h <;> rename_i hb <;> cases h
        · subst hb
          exact ⟨rfl, rfl, rfl⟩
        · have hfield := Machine.toNat_lengthField hmax
          have hpos : b.setWidth 6 ≠ 0 := fun h0 => hb (BitVec.eq_of_toNat_eq (by rw [← hfield, h0]; rfl))
          refine ⟨?_, wellFormed_length.mpr ⟨hpos, hfield.trans_le hmax⟩, rfl⟩
          rw [encode, Machine.setWidth_lengthField hmax]
  | rdpay =>
    cases t with
    | eos => cases h; exact ⟨rfl, rfl, rfl⟩
    | byte b =>
      simp only [decodeToken] at h
      split at h
      · cases h
        exact ⟨rfl, rfl, by simpa [Instr.readIn]⟩
      · split at h <;> cases h
        exact ⟨rfl, rfl, by simpa [Instr.readIn]⟩
  | done => cases h

/-- In a view that reads its row, a token row decodes from its one token (R105). -/
theorem decodeToken_of_readIn {st : ScanState} {len cnt : BitVec 6} {i : Instr} (hwf : i.WellFormed)
    (hread : i.readIn (.token st len cnt) = true) :
    ∃ t, encode i = [t] ∧ decodeToken st len cnt t = .ok i := by
  cases i with
  | battery | gps | vario | attitude | linkStats | radioSync | flightMode | unknown => cases hread
  | noise b =>
    obtain rfl : st = .seek := eq_of_beq hread
    exact ⟨_, rfl, if_neg (wellFormed_noise.mp hwf)⟩
  | marker | eosSeek =>
    obtain rfl : st = .seek := eq_of_beq hread
    exact ⟨_, rfl, rfl⟩
  | eosRdlen | empty =>
    obtain rfl : st = .rdlen := eq_of_beq hread
    exact ⟨_, rfl, rfl⟩
  | oversize b =>
    obtain rfl : st = .rdlen := eq_of_beq hread
    exact ⟨_, rfl, if_pos (wellFormed_oversize.mp hwf)⟩
  | length l =>
    obtain rfl : st = .rdlen := eq_of_beq hread
    exact ⟨_, rfl, decodeToken_length hwf⟩
  | payloadByte b =>
    obtain ⟨rfl, hcnt⟩ : st = .rdpay ∧ cnt.toNat + 1 < len.toNat := by simpa [Instr.readIn] using hread
    exact ⟨_, rfl, if_pos hcnt⟩
  | payloadLast b =>
    obtain ⟨rfl, hcnt⟩ : st = .rdpay ∧ cnt.toNat + 1 = len.toNat := by simpa [Instr.readIn] using hread
    exact ⟨_, rfl, by simp [decodeToken, hcnt]⟩
  | eosRdpay =>
    obtain rfl : st = .rdpay := eq_of_beq hread
    exact ⟨_, rfl, rfl⟩

/-! ### The FRAME rows: a type byte and a tail -/

/-- The FRAME row of a type byte and a tail has them as its parts (R84, R154). -/
theorem frameParts_route (t : Byte) (tail : List Byte) : (route t tail).frameParts = some (t, tail) := by
  unfold route
  split_ifs <;> simp_all [Instr.frameParts]

theorem encode_of_frameParts {i : Instr} {t : Byte} {tail : List Byte} (h : i.frameParts = some (t, tail)) :
    encode i = (frameBytes t tail).map .byte := by
  cases i <;> cases h <;> rfl

/-- The FRAME rows are those that are read as a whole frame. -/
theorem readIn_frame_iff {i : Instr} : i.readIn .frame = true ↔ ∃ t tail, i.frameParts = some (t, tail) := by
  cases i <;> simp [Instr.readIn, Instr.frameParts]

/-- A well-formed FRAME row is the one its type byte selects, since UNKNOWN has none of the known types (R102). -/
theorem eq_route_of_wellFormed {i : Instr} {t : Byte} {tail : List Byte} (hwf : i.WellFormed)
    (h : i.frameParts = some (t, tail)) : i = route t tail := by
  cases i with
  | unknown =>
    cases h
    obtain ⟨ht, _⟩ := wellFormed_unknown.mp hwf
    simp only [knownTypes, List.mem_cons, not_or] at ht
    obtain ⟨hgps, hvario, hbattery, hlink, hattitude, hflightMode, hradioSync, _⟩ := ht
    simp only [route, hgps, hvario, hbattery, hlink, hattitude, hflightMode, hradioSync, if_false]
  | _ => cases h <;> rfl

/-- The FRAME row of a type byte and a tail is well-formed when its payload is at most 62 bytes (R82). -/
theorem wellFormed_route {t : Byte} {tail : List Byte} :
    (route t tail).WellFormed ↔ tail.length + 1 ≤ Config.maxLen := by
  by_cases ht : t ∈ knownTypes
  · simp only [knownTypes, List.mem_cons, List.not_mem_nil, or_false] at ht
    rcases ht with rfl | rfl | rfl | rfl | rfl | rfl | rfl <;> exact tailFault_eq_none
  · have hroute : route t tail = .unknown t tail := by simp_all [route, knownTypes]
    rw [hroute, wellFormed_unknown, and_iff_right ht]

/-! ### The frame decoder -/

/-- The next `n` tokens are taken exactly when they are bytes. -/
theorem takeBytes_eq_some_iff {n : Nat} {ts rest : List Token} {bs : List Byte} :
    takeBytes n ts = some (bs, rest) ↔ bs.length = n ∧ ts = bs.map .byte ++ rest := by
  induction n generalizing ts bs with
  | zero => cases bs <;> simp [takeBytes]
  | succ n ih =>
    cases ts with
    | nil => cases bs <;> simp [takeBytes]
    | cons t ts =>
      cases t with
      | eos => cases bs <;> simp [takeBytes]
      | byte b =>
        cases bs with
        | nil => simp [takeBytes]
        | cons c cs => simp [takeBytes, ih, and_left_comm, and_assoc]

/-- What the frame decoder reads after the length byte: as many bytes as it says, 1 to 62 (R99, R100, R105). -/
theorem decodePayload_eq_ok_iff {l : Byte} {ts rest : List Token} {i : Instr} :
    decodePayload l ts = .ok (i, rest) ↔
      ∃ t tail, l.toNat = tail.length + 1 ∧ tail.length + 1 ≤ Config.maxLen ∧
        ts = (t :: tail).map .byte ++ rest ∧ i = route t tail := by
  constructor
  · intro h
    unfold decodePayload at h
    split at h
    · cases h
    · have hmax : l.toNat ≤ Config.maxLen := Nat.le_of_not_lt ‹_›
      split at h
      · cases h
      · rename_i n t tail rest' hl htake
        cases h
        obtain ⟨hlen, rfl⟩ := takeBytes_eq_some_iff.mp htake
        exact ⟨t, tail, hlen.symm, hlen.trans_le hmax, rfl, rfl⟩
      · cases h
  · rintro ⟨t, tail, hl, hmax, rfl, rfl⟩
    have htake : takeBytes (tail.length + 1) ((t :: tail).map .byte ++ rest) = some (t :: tail, rest) :=
      takeBytes_eq_some_iff.mpr ⟨rfl, rfl⟩
    simp only [decodePayload, hl, Nat.not_lt.mpr hmax, htake, if_false]

/-- The frame decoder reads exactly the bytes of a frame (R80, R81, R105). -/
theorem decodeFrame_eq_ok_iff {ts rest : List Token} {i : Instr} :
    decodeFrame ts = .ok (i, rest) ↔
      ∃ t tail, tail.length + 1 ≤ Config.maxLen ∧ ts = (frameBytes t tail).map .byte ++ rest ∧
        i = route t tail := by
  constructor
  · intro h
    unfold decodeFrame at h
    split at h
    · split at h
      · rename_i hmarker
        split at h
        · obtain ⟨t, tail, hl, hmax, rfl, rfl⟩ := decodePayload_eq_ok_iff.mp h
          refine ⟨t, tail, hmax, ?_, rfl⟩
          rw [hmarker, frameBytes, ← hl, BitVec.ofNat_toNat]
          rfl
        · cases h
      · cases h
    · cases h
  · rintro ⟨t, tail, hmax, rfl, rfl⟩
    have hl : (BitVec.ofNat 8 (tail.length + 1)).toNat = tail.length + 1 :=
      Nat.mod_eq_of_lt (hmax.trans_lt (by decide))
    exact decodePayload_eq_ok_iff.mpr ⟨t, tail, hl, hmax, rfl, rfl⟩

/-! ### The decoder and the encoder -/

/-- Settles O1: a token row is read from its one token, a FRAME row from the bytes of its frame. -/
theorem decodeReadsEncode : Obligations.DecodeReadsEncode := by
  intro i v rest hwf hread
  cases v with
  | token st len cnt =>
    obtain ⟨t, henc, hdec⟩ := decodeToken_of_readIn hwf hread
    rw [henc, List.singleton_append, decode, hdec]
    rfl
  | frame =>
    obtain ⟨t, tail, hparts⟩ := readIn_frame_iff.mp hread
    have hi := eq_route_of_wellFormed hwf hparts
    exact decodeFrame_eq_ok_iff.mpr
      ⟨t, tail, wellFormed_route.mp (hi ▸ hwf), by rw [encode_of_frameParts hparts], hi⟩

/-- Settles O2: what a decoder answers tells the one token, or the bytes of the frame, that it was given. -/
theorem encodeWritesWhatDecodeRead : Obligations.EncodeWritesWhatDecodeRead := by
  intro v ts i rest h
  cases v with
  | token st len cnt =>
    cases ts with
    | nil => cases h
    | cons t ts =>
      rw [decode] at h
      cases hdec : decodeToken st len cnt t with
      | error e => rw [hdec] at h; cases h
      | ok j =>
        rw [hdec] at h
        cases h
        obtain ⟨henc, hwf, hread⟩ := encode_of_decodeToken hdec
        exact ⟨by rw [henc]; rfl, hwf, hread⟩
  | frame =>
    obtain ⟨t, tail, hmax, rfl, rfl⟩ := decodeFrame_eq_ok_iff.mp h
    have hparts := frameParts_route t tail
    exact ⟨by rw [encode_of_frameParts hparts], wellFormed_route.mpr hmax,
      readIn_frame_iff.mpr ⟨t, tail, hparts⟩⟩

/-- Settles O3, by running the decoder on the eight words. -/
theorem writtenOutWordsDecode : Obligations.WrittenOutWordsDecode := by
  unfold Obligations.WrittenOutWordsDecode
  decide

/-- Settles O5: the three tests that come before the payload is read, each failing at its own byte. -/
theorem nonFramesAreRefused : Obligations.NonFramesAreRefused := by
  refine ⟨fun a ts ha => ?notMarker, fun l ts hl => ?oversizeLength, fun ts => ?emptyLength⟩
  case notMarker => exact if_neg ha
  case oversizeLength => exact if_pos hl
  case emptyLength => rfl

end Sys2Proof
end

section
/-! The fields of a payload's data as loads of the buffer (30_encoding.md R91, 20_memory.md R52). -/

namespace Sys2Proof.Safety

open Sys2Proof.Machine

/-- Each byte that a load of several bytes answers is the load of its offset. -/
theorem load_of_loadBytes {s : State} {i n j : Nat} {bs : List Byte} {b : Byte} (h : loadBytes s i n = .ok bs)
    (hb : bs[j]? = some b) : load s (i + j) = .ok b := by
  induction n generalizing i j bs with
  | zero => cases h; cases hb
  | succ n ih =>
    obtain ⟨c, cs, hc, hcs, rfl⟩ := loadBytes_succ_ok.mp h
    cases j with
    | zero => cases hb; exact hc
    | succ j => rw [Nat.add_succ, ← Nat.succ_add]; exact ih hcs hb

/-- `data[i]` stands at payload offset `i + 1`, after the type byte (R91, R152). -/
theorem load_data {s : State} {n i : Nat} {t : Byte} {tail : List Byte} (h : loadBytes s 0 n = .ok (t :: tail))
    (hi : i < (dataOf tail).length) : load s (i + 1) = .ok (byteAt (dataOf tail) i) := by
  have hdata : (dataOf tail)[i]? = some (byteAt (dataOf tail) i) := by
    rw [byteAt, List.getD_eq_getElem _ _ hi, List.getElem?_eq_getElem hi]
  have htail : (t :: tail)[i + 1]? = some (byteAt (dataOf tail) i) := by
    rw [List.getElem?_cons_succ, ← hdata, dataOf, List.getElem?_dropLast, if_pos (by simpa [dataOf] using hi)]
  have hload := load_of_loadBytes h htail
  rwa [Nat.zero_add] at hload

/-- Settles O36: the bytes of a field are loaded one by one, and both sides are their big-endian integer. -/
theorem fieldsAreBufferLoads : Obligations.FieldsAreBufferLoads := by
  intro s t tail i h
  have hload : ∀ j, i + j < (dataOf tail).length → load s (i + 1 + j) = .ok (byteAt (dataOf tail) (i + j)) :=
    fun j hj => Nat.add_right_comm i j 1 ▸ load_data h hj
  refine ⟨fun h0 => ?_, fun h1 => ?_, fun h3 => ?_⟩
  · rw [memRead_of_loadBytes (loadBytes_cons (hload 0 h0) rfl)]
    simp [bigEndian]
  · exact memRead_of_loadBytes (loadBytes_cons (hload 0 (by omega)) (loadBytes_cons (hload 1 h1) rfl))
  · exact memRead_of_loadBytes (loadBytes_cons (hload 0 (by omega)) (loadBytes_cons (hload 1 (by omega))
      (loadBytes_cons (hload 2 (by omega)) (loadBytes_cons (hload 3 h3) rfl))))

end Sys2Proof.Safety
end

section
/-! A whole frame offered token by token (40_frame_synchronizer.md R122, R127 to R129): its header, its payload, and
the dispatch of the row that its type byte selects. -/

namespace Sys2Proof.Safety

open Sys2Proof.Machine

theorem steps_add (m n : Nat) (s : State) : steps (m + n) s = andThen (steps m s) (steps n) := by
  induction m generalizing s with
  | zero => rw [Nat.zero_add]; rfl
  | succ m ih =>
    rw [Nat.succ_add, steps_succ, steps_succ]
    cases step s with
    | next t => exact ih t
    | fault r => rfl
    | refused r => rfl

/-! ### The transactions of a frame -/

/-- The transactions of the bytes of a frame: each is consumed on RX and mirrored (R65, R138). -/
def received (mirrorEn : Bool) (bs : List Byte) : List Transaction :=
  bs.flatMap fun b => .rx (.byte b) :: mirrored mirrorEn b

theorem received_append (m : Bool) (bs cs : List Byte) : received m (bs ++ cs) = received m bs ++ received m cs :=
  List.flatMap_append

theorem tokensRead_append (xs ys : List Transaction) : tokensRead (xs ++ ys) = tokensRead xs ++ tokensRead ys :=
  List.filterMap_append

theorem mirBytes_append (xs ys : List Transaction) : mirBytes (xs ++ ys) = mirBytes xs ++ mirBytes ys :=
  List.filterMap_append

theorem tokensRead_received (m : Bool) (bs : List Byte) : tokensRead (received m bs) = bs.map .byte := by
  induction bs with
  | nil => rfl
  | cons b bs ih =>
    have hhead : tokensRead (received m [b]) = [.byte b] := by cases m <;> rfl
    rw [← List.singleton_append, received_append, tokensRead_append, hhead, ih]
    rfl

theorem mirBytes_received (m : Bool) (bs : List Byte) : mirBytes (received m bs) = if m then bs else [] := by
  induction bs with
  | nil => cases m <;> rfl
  | cons b bs ih =>
    have hhead : mirBytes (received m [b]) = if m then [b] else [] := by cases m <;> rfl
    rw [← List.singleton_append, received_append, mirBytes_append, hhead, ih]
    cases m <;> rfl

/-- Reports are no RX and no MIR transactions. -/
theorem tokensRead_map_rep (rs : List Report) : tokensRead (rs.map .rep) = [] := by
  simp [tokensRead]

theorem mirBytes_map_rep (rs : List Report) : mirBytes (rs.map .rep) = [] := by
  simp [mirBytes]

/-! ### The states of a frame -/

/-- The state after a marker and the length byte `n`, with `is` still to come (R122, R127). -/
def headerRead (n : Nat) (is : List Input) (s : State) : State :=
  { s with
    st := .rdpay
    len := BitVec.ofNat 6 n
    cnt := 0
    inputs := is
    log := s.log ++ received s.mirrorEn [Config.marker, BitVec.ofNat 8 n] }

/-- The state in which a frame is dispatched: its bytes are consumed and mirrored, and its payload is in the buffer
(R129). -/
def frameStored (t : Byte) (tail : List Byte) (is : List Input) (s : State) : State :=
  { s with
    st := .rdpay
    len := BitVec.ofNat 6 (tail.length + 1)
    cnt := BitVec.ofNat 6 tail.length
    buf := fillBuf s.buf 0 (t :: tail)
    inputs := is
    log := s.log ++ received s.mirrorEn (frameBytes t tail) }

theorem headerRead_len {n : Nat} {is : List Input} {s : State} (h : n ≤ Config.maxLen) :
    (headerRead n is s).len.toNat = n :=
  Nat.mod_eq_of_lt (h.trans_lt (by decide))

theorem frameStored_len (t : Byte) {tail : List Byte} (is : List Input) (s : State)
    (h : tail.length + 1 ≤ Config.maxLen) : (frameStored t tail is s).len.toNat = tail.length + 1 :=
  Nat.mod_eq_of_lt (h.trans_lt (by decide))

theorem frameStored_cnt (t : Byte) {tail : List Byte} (is : List Input) (s : State)
    (h : tail.length + 1 ≤ Config.maxLen) : (frameStored t tail is s).cnt.toNat = tail.length :=
  Nat.mod_eq_of_lt ((Nat.lt_of_succ_le h).trans (by decide))

/-- A payload that fills the buffer from offset 0 on is loaded back. -/
theorem loadBytes_payload {s : State} {t : Byte} {tail : List Byte} (m : Memory)
    (hbuf : s.buf = fillBuf m 0 (t :: tail)) (h : tail.length + 1 ≤ Config.maxLen) :
    loadBytes s 0 (tail.length + 1) = .ok (t :: tail) :=
  loadBytes_fillBuf (bs := t :: tail) hbuf ((Nat.zero_add _).trans_le h)

/-- Rows MARKER and LENGTH, one after the other. -/
theorem marker_length_eq_headerRead (s : State) (n : Nat) (is js : List Input) :
    setSt .rdpay (setCnt 0 (setLen ((BitVec.ofNat 8 n).setWidth 6) (mirror (BitVec.ofNat 8 n) (accept
      (.byte (BitVec.ofNat 8 n)) (setInputs is (setSt .rdlen (mirror Config.marker (accept (.byte Config.marker)
        (setInputs js s))))))))) = headerRead n is s := by
  rw [BitVec.setWidth_ofNat_of_le (by decide)]
  simp [headerRead, received, setSt, setCnt, setLen, setInputs, mirror, accept, State.addLog]

theorem fillBuf_concat {m : Memory} {i : Nat} {bs : List Byte} {b : Byte} :
    fillBuf m i (bs ++ [b]) = (fillBuf m i bs).write (i + bs.length) b := by
  induction bs generalizing m i with
  | nil => rfl
  | cons c cs ih => rw [List.cons_append, fillBuf, ih, fillBuf, List.length_cons, Nat.add_right_comm, Nat.add_assoc]

/-- Collecting a payload but its last byte, and then storing that one, stores the frame (R128, R129). -/
theorem payloadStored_frame {s : State} {t b : Byte} {tail bs : List Byte} {is js ks : List Input}
    (hpayload : t :: tail = bs ++ [b]) (hlen : tail.length = bs.length) (hmax : tail.length + 1 ≤ Config.maxLen) :
    payloadStored b (setInputs is (payloadCollected bs js (headerRead (tail.length + 1) ks s))) =
      frameStored t tail is s := by
  have hoffset : bs.length % 64 = bs.length := Nat.mod_eq_of_lt ((Nat.lt_of_succ_le (hlen ▸ hmax)).trans (by decide))
  simp only [frameStored, frameBytes, hpayload, hlen, fillBuf_concat]
  simp [payloadStored, payloadCollected, headerRead, hoffset, received, mirror, accept, setInputs, State.addLog]

/-! ### The steps of a frame -/

/-- A ready core whose next input is a token runs the row of the token, and then the rest of the run. -/
theorem steps_token {s u : State} {k : Token} {is : List Input} {n : Nat} (hready : rxReady s = true)
    (hin : s.inputs = .token k :: is) (hrow : TokenStep (setInputs is s) k u) : steps (n + 1) s = steps n u := by
  rw [steps_succ, step_token hready hin, hrow.runToken_eq, andThen_next]

theorem steps_header {s : State} {n : Nat} {is : List Input} (hrst : s.rst = false) (hst : s.st = .seek)
    (hpos : 1 ≤ n) (hmax : n ≤ Config.maxLen) (hin : s.inputs = bytesIn [Config.marker, BitVec.ofNat 8 n] ++ is) :
    steps 2 s = .next (headerRead n is s) := by
  have hn : (BitVec.ofNat 8 n).toNat = n := Nat.mod_eq_of_lt (hmax.trans_lt (by decide))
  have hready : rxReady s = true := rxReady_iff.mpr ⟨hrst, by simp [hst]⟩
  refine Eq.trans (steps_token hready hin (.marker hst)) ?_
  refine Eq.trans (steps_token (rxReady_iff.mpr ⟨hrst, nofun⟩) rfl
    (.length rfl (hpos.trans_eq hn.symm) (hn.trans_le hmax))) (congrArg Host.Outcome.next ?_)
  exact marker_length_eq_headerRead s n is _

/-- A payload that fills `LEN` from `CNT` = 0 on is collected, and its last byte is dispatched (R128, R129). -/
theorem steps_payload {s v : State} {bs : List Byte} {b : Byte} {is : List Input} (hrst : s.rst = false)
    (hst : s.st = .rdpay) (hcnt : s.cnt.toNat = 0) (hlen : s.len.toNat = bs.length + 1)
    (hmax : bs.length + 1 ≤ Config.maxLen) (hin : s.inputs = bytesIn bs ++ .token (.byte b) :: is)
    (hd : dispatch (payloadStored b (setInputs is (payloadCollected bs (.token (.byte b) :: is) s))) = .next v) :
    steps (bs.length + 1) s = .next (setSt .seek v) := by
  have hcollected := steps_payloadBytes hrst hst (by omega) (by omega) hin
  have hcount : (payloadCollected bs (.token (.byte b) :: is) s).cnt.toNat = bs.length := by
    rw [payloadCollected_cnt (by omega), hcnt, Nat.zero_add]
  rw [steps_add, hcollected, andThen_next]
  exact steps_token (rxReady_iff.mpr ⟨hrst, fun h => by cases hst.symm.trans h⟩) rfl
    (.payloadLast hst ((congrArg (· + 1) hcount).trans hlen.symm) (hcount.trans_lt hmax) hd)

/-- The steps of a frame: the header, and the payload with its dispatch (R138). -/
theorem steps_frame {s v : State} {t : Byte} {tail : List Byte} {is : List Input} (hrst : s.rst = false)
    (hst : s.st = .seek) (hmax : tail.length + 1 ≤ Config.maxLen) (hin : s.inputs = bytesIn (frameBytes t tail) ++ is)
    (hd : dispatch (frameStored t tail is s) = .next v) : steps (tail.length + 3) s = .next (setSt .seek v) := by
  obtain ⟨bs, b, hpayload⟩ : ∃ bs b, t :: tail = bs ++ [b] :=
    ⟨_, _, (List.dropLast_append_getLast (List.cons_ne_nil t tail)).symm⟩
  have hlen : tail.length = bs.length := by simpa using congrArg List.length hpayload
  have hheader : s.inputs = bytesIn [Config.marker, BitVec.ofNat 8 (tail.length + 1)] ++
      (bytesIn bs ++ .token (.byte b) :: is) := by
    rw [hin, frameBytes, hpayload]
    simp [bytesIn]
  have hsteps : tail.length + 3 = 2 + (bs.length + 1) := by omega
  rw [hsteps, steps_add, steps_header hrst hst (Nat.le_add_left 1 _) hmax hheader, andThen_next]
  exact steps_payload hrst rfl rfl (by rw [headerRead_len hmax, hlen]) (hlen ▸ hmax) rfl
    (by rw [payloadStored_frame hpayload hlen hmax, hd])

/-! ### The dispatch of a frame -/

/-- A frame whose payload is in the buffer raises RAW and runs the row of its type byte (R153, R163). -/
theorem dispatch_of_loadBytes {s : State} {t : Byte} {tail : List Byte}
    (h : loadBytes s 0 s.len.toNat = .ok (t :: tail)) :
    dispatch s = runRow t tail (raise (.raw s.len (t :: tail)) s) := by
  cases hlen : s.len.toNat with
  | zero => rw [hlen] at h; cases h
  | succ n =>
    rw [hlen] at h
    obtain ⟨_, _, hty, htail, hpayload⟩ := loadBytes_succ_ok.mp h
    cases hpayload
    have htail : loadBytes s 1 (s.len.toNat - 1) = .ok tail := by rwa [hlen]
    simp only [dispatch, hty, htail]

/-- The row that the dispatcher runs is the instruction that the decoder reads (R154). -/
theorem exec_route (t : Byte) (tail : List Byte) (s : State) : exec (route t tail) s = runRow t tail s := by
  unfold route runRow
  split_ifs <;> rfl

/-- What `exec` of a frame's row reports is also what the dispatch of the frame reports after RAW. -/
theorem exec_dispatch_reports {s : State} {t : Byte} {tail : List Byte} (is : List Input)
    (hmax : tail.length + 1 ≤ Config.maxLen) :
    ∃ rs : List Report, exec (route t tail) s = .next (s.addLog (rs.map .rep)) ∧
      dispatch (frameStored t tail is s) = .next ((frameStored t tail is s).addLog
        (reported s.verb (.raw (BitVec.ofNat 6 (tail.length + 1)) (t :: tail)) ++ rs.map .rep)) := by
  obtain ⟨es, hes⟩ := runRow_raises t tail s
  obtain ⟨rs, hrs⟩ := flatMap_reported_eq_map s.verb es
  have hstored : loadBytes (frameStored t tail is s) 0 (frameStored t tail is s).len.toNat = .ok (t :: tail) := by
    rw [frameStored_len t is s hmax, loadBytes_payload s.buf rfl hmax]
  refine ⟨rs, ?_, ?_⟩
  · rw [exec_route, hes s rfl, raiseAll_eq, hrs]
  · rw [dispatch_of_loadBytes hstored, hes (raise _ (frameStored t tail is s)) rfl, raiseAll_eq, raise_eq,
      addLog_addLog, ← hrs]
    rfl

/-- What is transferred of an event is no RX and no MIR transaction. -/
theorem tokensRead_reported (v : BitVec 2) (e : Event) : tokensRead (reported v e) = [] := by
  rcases reported_cases v e with he | he | he <;> rw [he] <;> rfl

theorem mirBytes_reported (v : BitVec 2) (e : Event) : mirBytes (reported v e) = [] := by
  rcases reported_cases v e with he | he | he <;> rw [he] <;> rfl

/-- Settles O8: the steps of the frame end in its dispatch, which reports RAW and then what the row itself reports. -/
theorem frameTokensRunItsRow : Obligations.FrameTokensRunItsRow := by
  intro s i t tail is _ hready hst hwf hparts hin
  have henc := encode_of_frameParts hparts
  obtain rfl := eq_route_of_wellFormed hwf hparts
  have hmax := wellFormed_route.mp hwf
  have hbytes : s.inputs = bytesIn (frameBytes t tail) ++ is := by
    rw [hin, henc, List.map_map]
    rfl
  obtain ⟨rs, hexec, hd⟩ := exec_dispatch_reports (s := s) (t := t) is hmax
  have hrun := steps_frame (rxReady_iff.mp hready).1 hst hmax hbytes hd
  refine ⟨_, _, hrun, hexec, rfl, frameStored_len t is s hmax, frameStored_cnt t is s hmax,
    loadBytes_payload s.buf rfl hmax, rfl, rfl, rfl, rfl, rfl, ?_, ?_, ?_⟩
  · simp [frameStored, tokensRead_append, tokensRead_received, tokensRead_reported, tokensRead_map_rep, henc]
  · simp [frameStored, mirBytes_append, mirBytes_received, mirBytes_reported, mirBytes_map_rep]
  · have hreceived : reports (received s.mirrorEn (frameBytes t tail)) = [] := reports_received _ _
    simp [frameStored, reports_append, hreceived]

end Sys2Proof.Safety
end

section
/-! The transition table (40_frame_synchronizer.md R137): every token selects one row, and the step of a ready core
runs it; the rows of SEEK and RDLEN. -/

namespace Sys2Proof.Safety

open Sys2Proof.Machine

/-! ### The row that a token selects -/

/-- In RDPAY fewer bytes are counted than `LEN` says, so a payload byte is the last one or is not (R35, R137). -/
theorem Inv.decodeToken_ok {s : State} (h : Inv s) (hst : s.st ≠ .done) (t : Token) :
    ∃ i, decodeToken s.st s.len s.cnt t = .ok i := by
  cases hs : s.st with
  | seek =>
    cases t with
    | eos => exact ⟨_, rfl⟩
    | byte b =>
      by_cases hb : b = Config.marker
      · exact ⟨_, if_pos hb⟩
      · exact ⟨_, if_neg hb⟩
  | rdlen =>
    cases t with
    | eos => exact ⟨_, rfl⟩
    | byte b =>
      by_cases hmax : Config.maxLen < b.toNat
      · exact ⟨_, if_pos hmax⟩
      · by_cases hb : b = 0
        · exact ⟨_, (if_neg hmax).trans (if_pos hb)⟩
        · exact ⟨_, (if_neg hmax).trans (if_neg hb)⟩
  | rdpay =>
    cases t with
    | eos => exact ⟨_, rfl⟩
    | byte b =>
      obtain ⟨_, _, hcnt⟩ := h.frame hs
      by_cases hmore : s.cnt.toNat + 1 < s.len.toNat
      · exact ⟨_, if_pos hmore⟩
      · exact ⟨_, (if_neg hmore).trans (if_pos (by omega))⟩
  | done => exact absurd hs hst

/-- Settles O4: the row is the one that the decoder reads, and every row of the token in this view decodes from it. -/
theorem everyTokenHasExactlyOneRow : Obligations.EveryTokenHasExactlyOneRow := by
  intro s t h hst
  obtain ⟨i, hi⟩ := h.decodeToken_ok hst t
  obtain ⟨henc, hwf, hread⟩ := encode_of_decodeToken hi
  refine ⟨i, ⟨hwf, henc, hread⟩, fun j hjwf hjenc hjread => ?_⟩
  obtain ⟨t', hjenc', hj⟩ := decodeToken_of_readIn hjwf hjread
  obtain rfl : t = t' := List.singleton_inj.mp (hjenc.symm.trans hjenc')
  exact Except.ok.inj (hj.symm.trans hi)

/-! ### The step of a ready core that is offered a token -/

/-- Such a step is the meaning of the row, after the RX transaction (R120). -/
theorem step_exec {s : State} {t : Token} {is : List Input} {i : Instr} (hready : rxReady s = true)
    (hin : s.inputs = .token t :: is) (hdec : decodeToken s.st s.len s.cnt t = .ok i) :
    step s = exec i { s with inputs := is, log := s.log ++ [.rx t] } :=
  (step_token hready hin).trans (runToken_of_decode (s := setInputs is s) hdec)

theorem decodeToken_of_decode {st : ScanState} {len cnt : BitVec 6} {t : Token} {i : Instr}
    (h : decode (.token st len cnt) [t] = .ok (i, [])) : decodeToken st len cnt t = .ok i := by
  rw [decode] at h
  cases hdec : decodeToken st len cnt t with
  | error e => rw [hdec] at h; cases h
  | ok j => rw [hdec] at h; cases h; rfl

/-- Settles O6: from one token `decode` reads what `decodeToken` answers. -/
theorem stepRunsTheDecodedInstruction : Obligations.StepRunsTheDecodedInstruction :=
  fun _ _ _ _ hready hin hdec => step_exec hready hin (decodeToken_of_decode hdec)

/-- Such a step ends in the state that the row of the transition table names (R137). -/
theorem step_row {s u : State} {t : Token} {is : List Input} (hrst : s.rst = false) (hst : s.st ≠ .done)
    (hin : s.inputs = .token t :: is) (hrow : TokenStep (setInputs is s) t u) : step s = .next u :=
  (step_token (rxReady_iff.mpr ⟨hrst, hst⟩) hin).trans hrow.runToken_eq

/-! ### The rows of SEEK -/

/-- Settles O12: the row sets ST to SEEK, where it is already when the row is selected. -/
theorem noiseRow : Obligations.NoiseRow := by
  refine ⟨fun b s => rfl, fun b s is hrst hst hin hb => ?_⟩
  have hrow : TokenStep (setInputs is s) (.byte b)
      (setSt s.st (raise (.noise b) (accept (.byte b) (setInputs is s)))) := hst ▸ .noise hst hb
  exact step_row hrst (by simp [hst]) hin hrow

/-- Settles O13: the row of the marker. -/
theorem markerRow : Obligations.MarkerRow :=
  ⟨fun _ => rfl, fun _ _ hrst hst hin => step_row hrst (by simp [hst]) hin (.marker hst)⟩

/-! ### The rows of RDLEN -/

/-- Settles O14: the row of a length byte above 62; its mirror byte comes before its report. -/
theorem oversizeRow : Obligations.OversizeRow :=
  ⟨fun _ _ => rfl, fun _ _ _ hrst hst hin hmax => step_row hrst (by simp [hst]) hin (.oversize hst hmax)⟩

/-- Settles O15: the row of the length byte 0, which is not above 62. -/
theorem emptyRow : Obligations.EmptyRow :=
  ⟨fun _ => rfl, fun _ _ hrst hst hin => step_row hrst (by simp [hst]) hin (.empty hst)⟩

/-- Settles O16: the field `L` and the length byte hold the same number, 1 to 62. -/
theorem lengthRow : Obligations.LengthRow := by
  refine ⟨fun l s => ⟨l.setWidth 8, ?_, rfl⟩, fun b s is hrst hst hin hpos hmax => ⟨b.setWidth 6, ?_, ?_⟩⟩
  · exact BitVec.toNat_setWidth_of_le (by decide)
  · exact toNat_lengthField hmax
  · exact step_row hrst (by simp [hst]) hin (.length hst hpos hmax)

/-- A length byte that is 0 or above 62 abandons the attempt (R125, R126). -/
theorem tokenStep_abandoned {s : State} {l : Byte} (hst : s.st = .rdlen) (hl : l = 0 ∨ 62 < l.toNat) :
    TokenStep s (.byte l)
      (setSt .seek (raise (if l = 0 then .empty else .oversize l) (mirror l (accept (.byte l) s)))) := by
  by_cases hzero : l = 0
  · subst hzero
    exact .empty hst
  · rw [if_neg hzero]
    exact .oversize hst (hl.resolve_left hzero)

/-- Settles O24: row MARKER, and then the row that abandons the attempt. -/
theorem abandonedAttemptCostsTwoBytes : Obligations.AbandonedAttemptCostsTwoBytes := by
  intro s l is hrst hst hin hl
  refine ⟨_, ?_, rfl⟩
  have hmarker := steps_token (n := 1) (rxReady_iff.mpr ⟨hrst, by simp [hst]⟩) hin (.marker hst)
  have hlength := steps_token (n := 0)
    (s := setSt .rdlen (mirror Config.marker (accept (.byte Config.marker) (setInputs (.token (.byte l) :: is) s))))
    (rxReady_iff.mpr ⟨hrst, nofun⟩) rfl (tokenStep_abandoned rfl hl)
  refine (hmarker.trans hlength).trans ?_
  rw [← hst]
  rfl

end Sys2Proof.Safety
end

section
/-! The rows of RDPAY (40_frame_synchronizer.md R128, R129), end of stream in each state (R123, R124, R130), and the
steps that consume nothing (R131, R132). -/

namespace Sys2Proof.Safety

open Sys2Proof.Machine

/-! ### The store of a payload byte -/

/-- The state after a payload byte is mirrored and stored at `CNT`: `payloadStored` without its RX transaction, for any
state that `exec` may be given. -/
def byteStored (b : Byte) (s : State) : State :=
  { mirror b s with buf := s.buf.write s.cnt.toNat b }

/-- The offset of a store reads the byte, and every other offset reads as before (R51). -/
theorem load_of_write {s t : State} {i : Nat} {b : Byte} (hi : i < Config.bufDepth)
    (hbuf : t.buf = s.buf.write i b) : load t i = .ok b ∧ ∀ j, j ≠ i → load t j = load s j := by
  refine ⟨load_ok.mpr ⟨hi, ?_⟩, fun j hj => load_congr ?_⟩
  · rw [hbuf, Memory.read_write_same]
  · rw [hbuf, Memory.read_write_other _ b hj]

theorem store_mirror {b : Byte} {s : State} (h : s.cnt.toNat < Config.bufDepth) :
    store (mirror b s) s.cnt.toNat b = .next (byteStored b s) :=
  if_pos h

/-! ### PAYLOAD_BYTE -/

theorem exec_payloadByte {b : Byte} {s : State} (h : s.cnt.toNat < Config.bufDepth) :
    exec (.payloadByte b) s = .next (setSt .rdpay (setCnt (s.cnt + 1) (byteStored b s))) := by
  simp only [exec, execPayloadByte, store_mirror h, andThen_next]

/-- Settles O17: `LEN` has six bits, so that below it `CNT` is an offset of the buffer and does not wrap. -/
theorem payloadByteRow : Obligations.PayloadByteRow := by
  refine ⟨fun b s hcnt => ?_, fun b s is hrst hst hin hcnt => ?_⟩
  · have hbuf : s.cnt.toNat < Config.bufDepth := by
      have hlen := s.len.isLt
      have hdepth : Config.bufDepth = 62 := rfl
      omega
    exact ⟨_, exec_payloadByte hbuf, rfl, cnt_succ hcnt, load_of_write hbuf rfl⟩
  · exact step_exec (rxReady_iff.mpr ⟨hrst, by simp [hst]⟩) hin (by simp [decodeToken, hst, hcnt])

/-! ### PAYLOAD_LAST -/

theorem exec_payloadLast {b : Byte} {s : State} (h : s.cnt.toNat < Config.bufDepth) :
    exec (.payloadLast b) s = andThen (dispatch (byteStored b s)) fun u => .next (setSt .seek u) := by
  simp only [exec, execPayloadLast, store_mirror h, andThen_next]

theorem loadBytes_concat {s : State} {i n : Nat} {bs : List Byte} {b : Byte} (hbs : loadBytes s i n = .ok bs)
    (hb : load s (i + n) = .ok b) : loadBytes s i (n + 1) = .ok (bs ++ [b]) := by
  induction n generalizing i bs with
  | zero => cases hbs; exact loadBytes_cons hb rfl
  | succ n ih =>
    obtain ⟨c, cs, hc, hcs, rfl⟩ := loadBytes_succ_ok.mp hbs
    exact loadBytes_cons hc (ih hcs (by rwa [Nat.succ_add_eq_add_succ]))

theorem payloadWith_eq_some {s : State} {b : Byte} {payload : List Byte} :
    payloadWith s b = some payload ↔ ∃ bs, loadBytes s 0 s.cnt.toNat = .ok bs ∧ payload = bs ++ [b] := by
  unfold payloadWith
  cases loadBytes s 0 s.cnt.toNat <;> simp [eq_comm]

/-- With the last byte stored the whole payload is loaded from offset 0 on (R129, R152). -/
theorem loadBytes_byteStored {s : State} {b : Byte} {payload : List Byte} (hbuf : s.cnt.toNat < Config.bufDepth)
    (h : payloadWith s b = some payload) : loadBytes (byteStored b s) 0 (s.cnt.toNat + 1) = .ok payload := by
  obtain ⟨bs, hbs, rfl⟩ := payloadWith_eq_some.mp h
  obtain ⟨hlast, _⟩ := load_of_write (s := s) (t := byteStored b s) hbuf rfl
  have hsame : loadBytes (byteStored b s) 0 s.cnt.toNat = loadBytes s 0 s.cnt.toNat :=
    loadBytes_congr_range fun j _ hj => Memory.read_write_other _ b (by omega)
  exact loadBytes_concat (hsame.trans hbs) (by rwa [Nat.zero_add])

/-- Settles O7: the dispatch raises RAW with the payload and runs the row that `route` names. -/
theorem lastByteRunsTheSelectedFrameRow : Obligations.LastByteRunsTheSelectedFrameRow := by
  intro s b t tail hcnt hmax hpay
  have hbuf : s.cnt.toNat < Config.bufDepth := Nat.lt_of_succ_le (hcnt.trans_le hmax)
  have hload : loadBytes (byteStored b s) 0 (byteStored b s).len.toNat = .ok (t :: tail) :=
    (congrArg _ hcnt.symm).trans (loadBytes_byteStored hbuf hpay)
  rw [exec_payloadLast hbuf, dispatch_of_loadBytes hload, ← exec_route]
  rfl

/-- A FRAME row answers a next state and only reports (R150). -/
theorem exec_route_reports (t : Byte) (tail : List Byte) (s : State) :
    ∃ rs : List Report, exec (route t tail) s = .next (s.addLog (rs.map .rep)) := by
  obtain ⟨es, hes⟩ := runRow_raises t tail s
  obtain ⟨rs, hrs⟩ := flatMap_reported_eq_map s.verb es
  exact ⟨rs, by rw [exec_route, hes s rfl, raiseAll_eq, hrs]⟩

/-- A range of the buffer whose bytes all have a value is loaded. -/
theorem loadBytes_of_isSome {s : State} {i n : Nat} (hdepth : i + n ≤ Config.bufDepth)
    (h : ∀ j, i ≤ j → j < i + n → (s.buf.read j).isSome) : ∃ bs, loadBytes s i n = .ok bs := by
  induction n generalizing i with
  | zero => exact ⟨[], rfl⟩
  | succ n ih =>
    obtain ⟨b, hb⟩ := Option.isSome_iff_exists.mp (h i le_rfl (by omega))
    obtain ⟨bs, hbs⟩ := ih (i := i + 1) (by omega) fun j h1 h2 => h j (by omega) (by omega)
    exact ⟨b :: bs, loadBytes_cons (load_ok.mpr ⟨by omega, hb⟩) hbs⟩

/-- In RDPAY the bytes counted so far have a value, so the payload that `b` completes is known (R35). -/
theorem Inv.payloadWith_eq_cons {s : State} (h : Inv s) (hst : s.st = .rdpay) (b : Byte) :
    ∃ t tail, payloadWith s b = some (t :: tail) := by
  obtain ⟨_, hmax, hcnt⟩ := h.frame hst
  have hdepth : 0 + s.cnt.toNat ≤ Config.bufDepth := (Nat.zero_add _).trans_le (hcnt.le.trans hmax)
  obtain ⟨bs, hbs⟩ := loadBytes_of_isSome hdepth fun j _ hj => h.stored hst j (by omega)
  obtain ⟨t, tail, hpay⟩ := List.exists_cons_of_ne_nil (List.concat_ne_nil b bs)
  exact ⟨t, tail, payloadWith_eq_some.mpr ⟨bs, hbs, hpay.symm⟩⟩

/-- Settles O18: what follows the mirror byte is RAW and what the FRAME row reports. -/
theorem payloadLastRow : Obligations.PayloadLastRow := by
  refine ⟨fun b s h hst hcnt => ?_, fun b s is hrst hst hin hcnt => ?_⟩
  · obtain ⟨_, hmax, hlt⟩ := h.frame hst
    obtain ⟨t, tail, hpay⟩ := h.payloadWith_eq_cons hst b
    obtain ⟨raw, hraw⟩ := flatMap_reported_eq_map s.verb [.raw s.len (t :: tail)]
    rw [List.flatMap_singleton] at hraw
    rw [lastByteRunsTheSelectedFrameRow s b t tail hcnt hmax hpay, hraw]
    obtain ⟨rs, hrs⟩ := exec_route_reports t tail { s with
      buf := s.buf.write s.cnt.toNat b
      log := s.log ++ (if s.mirrorEn then [.mir b] else []) ++ raw.map .rep }
    rw [hrs, andThen_next]
    refine ⟨_, raw ++ rs, rfl, ?_, load_of_write (hlt.trans_le hmax) rfl⟩
    simp [State.addLog]
  · exact step_exec (rxReady_iff.mpr ⟨hrst, by simp [hst]⟩) hin (by simp [decodeToken, hst, hcnt])

/-! ### End of stream -/

/-- Settles O19: the row of each state records that state. -/
theorem endOfStreamRows : Obligations.EndOfStreamRows := by
  refine ⟨fun s => rfl, fun s => rfl, fun s => rfl, fun s is hrst hst hin => ?_⟩
  have hstep {u : State} (hrow : TokenStep (setInputs is s) .eos u) : step s = .next u := step_row hrst hst hin hrow
  cases hs : s.st with
  | seek => exact hstep (.eosSeek hs)
  | rdlen => exact hstep (.eosRdlen hs)
  | rdpay => exact hstep (.eosRdpay hs)
  | done => exact absurd hs hst

/-! ### The steps that consume nothing -/

theorem takePins_eq_none {is : List Input} (h : ∀ r v m, Input.pins r v m ∉ is) : takePins is = none := by
  induction is with
  | nil => rfl
  | cons i is ih =>
    have hrest : takePins is = none := ih fun r v m hmem => h r v m (List.mem_cons_of_mem i hmem)
    cases i with
    | pins r v m => exact absurd List.mem_cons_self (h r v m)
    | token | cut | idle => simp [takePins, hrest]

/-- A core that is not ready stays as it is while no drive of the pins is among the inputs (R131, R330). -/
theorem step_waiting_self {s : State} (hready : rxReady s = false) (h : takePins s.inputs = none) :
    step s = .next s := by
  simp only [step_waiting hready, waitingCycle, h]

theorem steps_of_step_self {s : State} (h : step s = .next s) (n : Nat) : steps n s = .next s := by
  induction n with
  | zero => rfl
  | succ n ih => rw [steps_succ, h, andThen_next, ih]

theorem rxReady_done {s : State} (h : s.st = .done) : rxReady s = false := by
  simp [rxReady, h]

/-- Settles O20: in DONE the core waits, and the pins, driven with `rst` released, do nothing unless they assert it. -/
theorem doneIsAbsorbing : Obligations.DoneIsAbsorbing := by
  refine ⟨fun n s hst _ hpins => ?_, fun s u hst hrst hstep => ?_⟩
  · have hready := rxReady_done hst
    exact ⟨hready, steps_of_step_self (step_waiting_self hready (takePins_eq_none hpins)) n⟩
  · rcases step_next hstep with ⟨hready, _⟩ | ⟨_, ⟨_, rfl⟩ | ⟨r, v, m, is, _, rfl⟩⟩
    · simp [rxReady_done hst] at hready
    · exact .inr rfl
    · rcases drivePins_cases r v m (setInputs is s) with ⟨_, hd⟩ | ⟨_, hheld, _⟩ | ⟨_, _, hd⟩
      · exact .inl (by rw [hd, enterReset_rst])
      · simp [hrst] at hheld
      · exact .inr (by rw [hd]; rfl)

/-- Settles O21: with no input both a ready and a waiting core wait; a ready core passes over a moment. -/
theorem waitingChangesNothing : Obligations.WaitingChangesNothing := by
  refine ⟨fun s hin => ?_, fun s is hready hin => ?_⟩
  · cases hready : rxReady s with
    | true => simp only [step_ready hready, readyCycle, hin]
    | false => exact step_waiting_self hready (by rw [hin]; rfl)
  · simp only [step_ready hready, readyCycle, hin]
    rfl

end Sys2Proof.Safety
end

section
/-! The payload dispatcher (41_payload_dispatcher.md): what its rows may report, the drop of a frame of another length,
and that no step of the machine stops. -/

namespace Sys2Proof.Safety

open Sys2Proof.Machine

/-! ### What a FRAME row may report -/

/-- An event that a FRAME row may raise: none of the scanner's, and not RAW, which the dispatcher itself raises (R153,
R161). -/
abbrev RowEvent (e : Event) : Prop := e.kind ∉ [EventKind.noise, .oversize, .empty, .raw]

/-- What a FRAME row raises: at most one event. -/
def RowEvents (es : List Event) : Prop := es.length ≤ 1 ∧ ∀ e ∈ es, RowEvent e

theorem rowEvents_nil : RowEvents [] := ⟨Nat.zero_le 1, nofun⟩

theorem rowEvents_singleton {e : Event} (h : RowEvent e) : RowEvents [e] :=
  ⟨le_rfl, fun _ he => List.mem_singleton.mp he ▸ h⟩

theorem rowEvent_of_kind {e : Event} (k : EventKind) (he : e.kind = k)
    (hk : k ∉ [EventKind.noise, .oversize, .empty, .raw]) : RowEvent e := by rwa [RowEvent, he]

theorem rowEvent_lenMismatch {t : Byte} {dlen expected : Nat} : RowEvent (lenMismatch t dlen expected) :=
  rowEvent_of_kind .lenMismatch rfl (by decide)

/-- A row that checks the data's length raises its own event or the mismatch (R155, R156). -/
theorem rowEvent_checked {c : Prop} [Decidable c] {e : Event} {t : Byte} {dlen expected : Nat}
    (h : RowEvent e) : RowEvent (if c then e else lenMismatch t dlen expected) := by
  split
  · exact h
  · exact rowEvent_lenMismatch

/-- Attitude data gives a record or the diagnostic (R211, R214). -/
theorem rowEvent_decodeAttitude (data : List Byte) : RowEvent (decodeAttitude data) := by
  unfold decodeAttitude
  split
  · exact rowEvent_of_kind .attitude rfl (by decide)
  · exact rowEvent_of_kind .attNondec rfl (by decide)

/-- Radio-sync data gives a record or nothing (R226, R228). -/
theorem rowEvents_decodeRadioSync (data : List Byte) : RowEvents (decodeRadioSync data) := by
  unfold decodeRadioSync
  split
  · exact rowEvents_singleton (rowEvent_of_kind .radioSync rfl (by decide))
  · exact rowEvents_nil

theorem raises_rowEvent {e : Event} (h : RowEvent e) (s : State) :
    ∃ es, RowEvents es ∧ (.next (raise e s) : Outcome) = .next (raiseAll es s) :=
  ⟨[e], rowEvents_singleton h, rfl⟩

/-- Every row of the routing table raises at most one event, of no framing kind (R154, R161). -/
theorem runRow_raises_rowEvents (ty : Byte) (tail : List Byte) (s : State) :
    ∃ es, RowEvents es ∧ runRow ty tail s = .next (raiseAll es s) := by
  unfold runRow
  split_ifs with battery linkStats attitude radioSync flightMode gps vario
  · exact raises_rowEvent (rowEvent_checked (rowEvent_of_kind .battery rfl (by decide))) s
  · exact raises_rowEvent (rowEvent_checked (rowEvent_of_kind .linkStats rfl (by decide))) s
  · exact raises_rowEvent (rowEvent_checked (rowEvent_decodeAttitude _)) s
  · refine ⟨_, ?_, rfl⟩
    split
    · exact rowEvents_decodeRadioSync _
    · exact rowEvents_singleton rowEvent_lenMismatch
  · exact raises_rowEvent (rowEvent_of_kind .flightMode rfl (by decide)) s
  · exact raises_rowEvent (rowEvent_checked (rowEvent_of_kind .gpsSeen rfl (by decide))) s
  · exact raises_rowEvent (rowEvent_checked (rowEvent_of_kind .varioSeen rfl (by decide))) s
  · exact raises_rowEvent (rowEvent_of_kind .unknown rfl (by decide)) s

/-- Settles O34: after RAW the dispatch runs a row of the routing table, which raises at most one event. -/
theorem dispatchReportsRawAndAtMostOneEvent : Obligations.DispatchReportsRawAndAtMostOneEvent := by
  intro s t hlen hd
  obtain ⟨ty, tail, hty, htail, hrun⟩ := dispatch_next hd
  obtain ⟨es, ⟨hone, hkinds⟩, hes⟩ := runRow_raises_rowEvents ty tail (raise (.raw s.len (ty :: tail)) s)
  have hpayload : loadBytes s 0 s.len.toNat = .ok (ty :: tail) := by
    rw [← Nat.sub_add_cancel hlen]
    exact loadBytes_cons hty htail
  cases hes.symm.trans hrun
  exact ⟨ty :: tail, es, hpayload, hone, hkinds, by simp [raiseAll_eq, raise_eq]⟩

/-! ### A frame of another data length -/

/-- A row whose length condition fails reports the mismatch, whatever the data (R155, R156). -/
theorem raise_checked_mismatch {dlen expected : Nat} (h : dlen ≠ expected) (t : Byte) (e : Event) (s : State) :
    raise (if dlen = expected then e else lenMismatch t dlen expected) s =
      s.addLog (reported s.verb (lenMismatch t dlen expected)) := by
  rw [if_neg h, raise_eq]

/-- Settles O33: each of the four rows tests the length before it reads a field; `mm_dlen` holds every data length. -/
theorem lengthMismatchDropsTheFrame : Obligations.LengthMismatchDropsTheFrame := by
  intro s tail hmax
  have hdlen : (BitVec.ofNat 6 tail.dropLast.length).toNat = tail.dropLast.length := by
    rw [BitVec.toNat_ofNat, List.length_dropLast]
    omega
  refine ⟨_, hdlen, fun h => ?battery, fun h => ?linkStats, fun h => ?attitude, fun h => ?radioSync⟩
  case battery => exact congrArg Host.Outcome.next (raise_checked_mismatch h _ _ s)
  case linkStats => exact congrArg Host.Outcome.next (raise_checked_mismatch h _ _ s)
  case attitude => exact congrArg Host.Outcome.next (raise_checked_mismatch h _ _ s)
  case radioSync => exact congrArg (fun es => Host.Outcome.next (raiseAll es s)) (if_neg h)

/-! ### No step stops -/

/-- Every instruction completes in a state whose view reads it: a payload byte finds its offset in the buffer, and the
last one all the bytes before it (R35, R160). -/
theorem Inv.exec_next {s : State} (h : Inv s) {i : Instr} (hread : i.readIn (.token s.st s.len s.cnt) = true) :
    ∃ u, exec i s = .next u := by
  obtain ⟨hbyte, _⟩ := payloadByteRow
  obtain ⟨hlast, _⟩ := payloadLastRow
  cases i with
  | payloadByte b =>
    obtain ⟨_, hcnt⟩ : s.st = .rdpay ∧ s.cnt.toNat + 1 < s.len.toNat := by simpa [Instr.readIn] using hread
    obtain ⟨u, hu, _⟩ := hbyte b s hcnt
    exact ⟨u, hu⟩
  | payloadLast b =>
    obtain ⟨hst, hcnt⟩ : s.st = .rdpay ∧ s.cnt.toNat + 1 = s.len.toNat := by simpa [Instr.readIn] using hread
    obtain ⟨u, _, hu, _⟩ := hlast b s h hst hcnt
    exact ⟨u, hu⟩
  | _ => exact ⟨_, rfl⟩

theorem Inv.runToken_next {s : State} (h : Inv s) (hst : s.st ≠ .done) (t : Token) :
    ∃ u, runToken t s = .next u := by
  obtain ⟨i, hi⟩ := h.decodeToken_ok hst t
  obtain ⟨_, _, hread⟩ := encode_of_decodeToken hi
  rw [runToken_of_decode hi]
  exact (h.addLog [.rx t]).exec_next hread

/-- A reset inside the step of a token cuts what that step would have transferred, and the step completes (R331). -/
theorem Inv.runCut_next {s : State} (h : Inv s) (hst : s.st ≠ .done) (t : Token) (n : Nat) :
    ∃ u, runCut t n s = .next u := by
  obtain ⟨u, hu⟩ := h.runToken_next hst t
  exact ⟨_, by rw [runCut, hu, andThen_next]⟩

/-- Settles O11: of all that the environment can do next only a token runs a row, and every row completes. -/
theorem noStepStops : Obligations.NoStepStops := by
  intro s h
  cases hready : rxReady s with
  | true =>
    obtain ⟨_, hst⟩ := rxReady_iff.mp hready
    simp only [step_ready hready, readyCycle]
    cases s.inputs with
    | nil => exact ⟨_, rfl⟩
    | cons i is =>
      cases i with
      | token t => exact (h.setInputs is).runToken_next hst t
      | cut t n => exact (h.setInputs is).runCut_next hst t n
      | pins | idle => exact ⟨_, rfl⟩
  | false =>
    simp only [step_waiting hready, waitingCycle]
    cases takePins s.inputs <;> exact ⟨_, rfl⟩

end Sys2Proof.Safety
end

section
/-! The battery decoder (42_decoder_battery.md R180, R181): the value of a 16-bit field on its bus, and the record of a
frame whose data length is right. -/

namespace Sys2Proof.Safety

open Sys2Proof.Machine

/-! ### The 16-bit fields -/

/-- `be16` by its two bytes, the first most significant (R91). -/
theorem be16_eq (data : List Byte) (i : Nat) :
    be16 data i = (byteAt data i).toNat * 256 + (byteAt data (i + 1)).toNat := by
  simp [be16, bigEndian]

/-- A 16-bit bus holds every value of `be16`, none wraps and none is negative (R91). -/
theorem toNat_ofNat_be16 (data : List Byte) (i : Nat) :
    (BitVec.ofNat 16 (be16 data i)).toNat = (byteAt data i).toNat * 256 + (byteAt data (i + 1)).toNat := by
  have hhigh := (byteAt data i).isLt
  have hlow := (byteAt data (i + 1)).isLt
  rw [BitVec.toNat_ofNat, be16_eq]
  omega

/-! ### A frame of the right data length -/

/-- A row whose length condition holds reports its own event (R155). -/
theorem raise_checked_record {dlen expected : Nat} (h : dlen = expected) (t : Byte) (e : Event) (s : State) :
    raise (if dlen = expected then e else lenMismatch t dlen expected) s = s.addLog (reported s.verb e) := by
  rw [if_pos h, raise_eq]

/-- Row BATTERY with 8 data bytes reports what `decode_battery` makes of them, and writes nothing else (R181). -/
theorem exec_battery_of_length {tail : List Byte} (h : (dataOf tail).length = Config.dlBattery) (s : State) :
    exec (.battery tail) s = .next (s.addLog (reported s.verb (decodeBattery (dataOf tail)))) :=
  congrArg Host.Outcome.next (raise_checked_record h _ _ s)

/-! ### The record -/

/-- The attributes of the record that `decode_battery` makes, each read from its own offsets of the data (R180). -/
theorem decodeBattery_batteryStats (data : List Byte) :
    (decodeBattery data).batteryStats =
      some ⟨(((byteAt data 0).toNat * 256 + (byteAt data 1).toNat : Nat) : ℚ) / 10,
        (((byteAt data 2).toNat * 256 + (byteAt data 3).toNat : Nat) : ℚ) / 10,
        (byteAt data 4).toNat * 256 + (byteAt data 5).toNat, (byteAt data 7).toNat⟩ := by
  simp only [decodeBattery, Event.batteryStats, tenths, toNat_ofNat_be16]

/-- Settles O25: the data is the tail without its integrity byte, and `decode_battery` reads it at every offset but 6. -/
theorem batteryRecord : Obligations.BatteryRecord := by
  intro s v1 v0 c1 c0 m1 m0 skipped p x
  let data : List Byte := [v1, v0, c1, c0, m1, m0, skipped, p]
  have hexec : exec (.battery [v1, v0, c1, c0, m1, m0, skipped, p, x]) s =
      .next (s.addLog (reported s.verb (decodeBattery data))) := exec_battery_of_length rfl s
  exact ⟨_, _, _, toNat_ofNat_be16 data 0, toNat_ofNat_be16 data 2, toNat_ofNat_be16 data 4, hexec,
    decodeBattery_batteryStats data⟩

end Sys2Proof.Safety
end

section
/-! The link-statistics decoder (43_decoder_link_stats.md R191 to R198): the value that each bus holds, and the record
of a frame whose data length is right. -/

namespace Sys2Proof.Safety

open Sys2Proof.Machine

/-! ### The fields -/

/-- A 9-bit RSSI bus holds every negated magnitude, 0 to -255, without wrapping (R92). -/
theorem toInt_ofInt_neg9 (b : Byte) : (BitVec.ofInt 9 (neg9 b)).toInt = -(b.toNat : Int) := by
  have hb := b.isLt
  exact BitVec.toInt_ofInt_eq_self (by decide) (by rw [neg9]; omega) (by rw [neg9]; omega)

/-- An 8-bit SNR bus holds every value of `signed8`, -128 to 127 (R93). -/
theorem toInt_ofInt_signed8 (b : Byte) : (BitVec.ofInt 8 (signed8 b)).toInt = signed8 b := by
  have hb := b.isLt
  obtain ⟨hlow, hhigh⟩ : -128 ≤ signed8 b ∧ signed8 b < 128 := by unfold signed8; split <;> omega
  exact BitVec.toInt_ofInt_eq_self (by decide) hlow hhigh

/-- The power lookup by its two cases: the table has an entry exactly for the indices 0 to 8 (R95, R197). -/
theorem pwr_eq (p : Byte) : pwr p = if p.toNat ≤ 8 then pwrTable.getD p.toNat 0 else p.toNat := by
  have hlen : pwrTable.length = 9 := rfl
  unfold pwr
  split
  · have hp : p.toNat < pwrTable.length := by omega
    rw [List.getD_eq_getElem _ _ hp, List.getD_eq_getElem _ _ hp]
  · exact List.getD_eq_default _ _ (by omega)

/-- The 11-bit power bus holds every entry of the table, 2000 at most, and every index that passes through (R197). -/
theorem toNat_ofNat_pwr (p : Byte) : (BitVec.ofNat 11 (pwr p)).toNat = pwr p := by
  have hp := p.isLt
  have hentries : ∀ n ∈ pwrTable, n < 2 ^ 11 := by decide
  rw [BitVec.toNat_ofNat]
  refine Nat.mod_eq_of_lt ?_
  rcases lt_or_ge p.toNat pwrTable.length with hentry | hbeyond
  · rw [pwr, List.getD_eq_getElem _ _ hentry]
    exact hentries _ (List.getElem_mem hentry)
  · rw [pwr, List.getD_eq_default _ _ hbeyond]
    omega

/-- The active RSSI is chosen between the two RSSI buses by the antenna byte's value (R198). -/
theorem activeRssi_eq (ant : Byte) (r1 r2 : Int) :
    BitVec.ofInt 9 (if ant = 1 then r2 else r1) =
      if ant.toNat = 1 then BitVec.ofInt 9 r2 else BitVec.ofInt 9 r1 := by
  have hone : ant = 1 ↔ ant.toNat = 1 := BitVec.toNat_inj.symm
  simp only [hone, apply_ite (BitVec.ofInt 9)]

/-! ### The record -/

/-- Row LINK_STATS with 10 data bytes reports what `decode_link_stats` makes of them, and writes nothing else (R191). -/
theorem exec_linkStats_of_length {tail : List Byte} (h : (dataOf tail).length = Config.dlLink) (s : State) :
    exec (.linkStats tail) s = .next (s.addLog (reported s.verb (decodeLinkStats (dataOf tail)))) :=
  congrArg Host.Outcome.next (raise_checked_record h _ _ s)

/-- The record of any data, with the active RSSI as a choice between the two reported RSSI fields (R191, R198). -/
theorem decodeLinkStats_eq (data : List Byte) :
    decodeLinkStats data =
      .linkStats (BitVec.ofInt 9 (neg9 (byteAt data 0))) (BitVec.ofInt 9 (neg9 (byteAt data 1))) (byteAt data 2)
        (BitVec.ofInt 8 (signed8 (byteAt data 3))) (byteAt data 4) (byteAt data 5)
        (BitVec.ofNat 11 (pwr (byteAt data 6))) (BitVec.ofInt 9 (neg9 (byteAt data 7))) (byteAt data 8)
        (BitVec.ofInt 8 (signed8 (byteAt data 9)))
        (if (byteAt data 4).toNat = 1 then BitVec.ofInt 9 (neg9 (byteAt data 1))
         else BitVec.ofInt 9 (neg9 (byteAt data 0))) := by
  rw [decodeLinkStats, activeRssi_eq]

/-- Settles O26: each bus holds its field's exact value, and the record is read from the data without the integrity
byte. -/
theorem linkStatsRecord : Obligations.LinkStatsRecord := by
  intro s d0 d1 d2 d3 d4 d5 d6 d7 d8 d9 x
  let data : List Byte := [d0, d1, d2, d3, d4, d5, d6, d7, d8, d9]
  have hexec : exec (.linkStats [d0, d1, d2, d3, d4, d5, d6, d7, d8, d9, x]) s =
      .next (s.addLog (reported s.verb (decodeLinkStats data))) := exec_linkStats_of_length rfl s
  rw [decodeLinkStats_eq] at hexec
  exact ⟨_, _, _, _, _, _, toInt_ofInt_neg9 d0, toInt_ofInt_neg9 d1, toInt_ofInt_neg9 d7, toInt_ofInt_signed8 d3,
    toInt_ofInt_signed8 d9, (toNat_ofNat_pwr d6).trans (pwr_eq d6), hexec⟩

end Sys2Proof.Safety
end

section
/-! The attitude decoder (44_decoder_attitude.md R211 to R216): the four nibbles of a field as the hexadecimal digits of
its value, the record or the diagnostic, and the range of what a record holds. -/

namespace Sys2Proof.Safety

open Sys2Proof.Machine

/-! ### Hexadecimal spelling, decimal reading -/

/-- The hexadecimal spelling of `n` is a decimal numeral: no digit is above 9 (R211). -/
def DecimalSpelling (n : Nat) : Prop := ∀ d ∈ Nat.digits 16 n, d ≤ 9

/-- The hexadecimal spelling of `n`, read in base ten (R211). -/
def decimalReading (n : Nat) : Nat := Nat.ofDigits 10 (Nat.digits 16 n)

theorem decimalSpelling_zero : DecimalSpelling 0 := by simp [DecimalSpelling]

theorem decimalReading_zero : decimalReading 0 = 0 := by simp [decimalReading]

/-- One more hexadecimal digit at the end of a spelling; 0 is spelled by no digit at all. -/
theorem digits_appendDigit (n : Nat) {d : Nat} (hd : d < 16) (hpos : d ≠ 0 ∨ n ≠ 0) :
    Nat.digits 16 (16 * n + d) = d :: Nat.digits 16 n := by
  rw [Nat.add_comm]
  exact Nat.digits_add 16 (by decide) d n hd hpos

theorem decimalSpelling_appendDigit (n : Nat) {d : Nat} (hd : d < 16) :
    DecimalSpelling (16 * n + d) ↔ DecimalSpelling n ∧ d ≤ 9 := by
  by_cases hpos : d ≠ 0 ∨ n ≠ 0
  · simp only [DecimalSpelling, digits_appendDigit n hd hpos, List.forall_mem_cons, and_comm]
  · obtain ⟨rfl, rfl⟩ : d = 0 ∧ n = 0 := by simpa only [not_or, not_not] using hpos
    simp [decimalSpelling_zero]

theorem decimalReading_appendDigit (n : Nat) {d : Nat} (hd : d < 16) :
    decimalReading (16 * n + d) = 10 * decimalReading n + d := by
  by_cases hpos : d ≠ 0 ∨ n ≠ 0
  · rw [decimalReading, digits_appendDigit n hd hpos, Nat.ofDigits_cons, Nat.add_comm, decimalReading]
  · obtain ⟨rfl, rfl⟩ : d = 0 ∧ n = 0 := by simpa only [not_or, not_not] using hpos
    simp [decimalReading_zero]

/-! ### One field -/

theorem highNibble_lt (b : Byte) : highNibble b < 16 := by
  have hb := b.isLt
  unfold highNibble
  omega

theorem lowNibble_lt (b : Byte) : lowNibble b < 16 := Nat.mod_lt _ (by decide)

/-- The value of a field spelled by its nibbles, the high nibble of the first byte first (R94). -/
theorem fieldValue_eq_nibbles (h l : Byte) :
    h.toNat * 256 + l.toNat =
      16 * (16 * (16 * (16 * 0 + highNibble h) + lowNibble h) + highNibble l) + lowNibble l := by
  unfold highNibble lowNibble
  omega

theorem decimalSpelling_field (h l : Byte) :
    DecimalSpelling (h.toNat * 256 + l.toNat) ↔
      highNibble h ≤ 9 ∧ lowNibble h ≤ 9 ∧ highNibble l ≤ 9 ∧ lowNibble l ≤ 9 := by
  simp only [fieldValue_eq_nibbles, decimalSpelling_appendDigit, highNibble_lt, lowNibble_lt,
    decimalSpelling_zero, true_and, and_assoc]

theorem decimalReading_field (h l : Byte) :
    decimalReading (h.toNat * 256 + l.toNat) =
      1000 * highNibble h + 100 * lowNibble h + 10 * highNibble l + lowNibble l := by
  simp only [fieldValue_eq_nibbles, decimalReading_appendDigit, highNibble_lt, lowNibble_lt, decimalReading_zero]
  omega

/-- `bcd4` answers the decimal reading of a field whose hexadecimal spelling has one (R94, R211). -/
theorem bcd4_of_decimal {h l : Byte} (hdec : DecimalSpelling (h.toNat * 256 + l.toNat)) :
    bcd4 h l = some (decimalReading (h.toNat * 256 + l.toNat)) := by
  rw [bcd4, if_pos ((decimalSpelling_field h l).mp hdec), decimalReading_field]

theorem bcd4_isNone_iff (h l : Byte) :
    (bcd4 h l).isNone = true ↔ ¬ DecimalSpelling (h.toNat * 256 + l.toNat) := by
  rw [bcd4, decimalSpelling_field]
  split
  · next hdigits => simp [hdigits]
  · next hdigits => simp only [hdigits, Option.isNone_none, not_false_eq_true]

/-- Four decimal digits read at most `99 99` (R215). -/
theorem bcd4_le {h l : Byte} {n : Nat} (hn : bcd4 h l = some n) : n ≤ 9999 := by
  unfold bcd4 at hn
  split at hn
  · cases hn
    omega
  · cases hn

/-- A 14-bit bus holds every decimal reading of a field (R212). -/
theorem toNat_ofNat_of_bcd4 {h l : Byte} {n : Nat} (hn : bcd4 h l = some n) : (BitVec.ofNat 14 n).toNat = n := by
  have hle := bcd4_le hn
  rw [BitVec.toNat_ofNat]
  omega

/-! ### The record or the diagnostic -/

/-- The bits of the diagnostic: 2 pitch, 1 roll, 0 yaw (R211). -/
theorem nondecFields_getLsbD (p r y : Option Nat) :
    (nondecFields p r y).getLsbD 2 = p.isNone ∧ (nondecFields p r y).getLsbD 1 = r.isNone ∧
      (nondecFields p r y).getLsbD 0 = y.isNone := by
  have hbits : ∀ a b c : Bool, let f := BitVec.ofBool a ++ BitVec.ofBool b ++ BitVec.ofBool c
      f.getLsbD 2 = a ∧ f.getLsbD 1 = b ∧ f.getLsbD 0 = c := by decide
  exact hbits p.isNone r.isNone y.isNone

/-- A record needs the decimal reading of all three fields (R211). -/
theorem decodeAttitude_record {data : List Byte} {p r y : Nat} (hp : digitsAt data 0 = some p)
    (hr : digitsAt data 2 = some r) (hy : digitsAt data 4 = some y) :
    decodeAttitude data = .attitude (BitVec.ofNat 14 p) (BitVec.ofNat 14 r) (BitVec.ofNat 14 y) := by
  simp only [decodeAttitude, hp, hr, hy]

/-- One field with no decimal reading suppresses the record (R214). -/
theorem decodeAttitude_nondec {data : List Byte} (h : (digitsAt data 0).isNone = true ∨
    (digitsAt data 2).isNone = true ∨ (digitsAt data 4).isNone = true) :
    decodeAttitude data = .attNondec (nondecFields (digitsAt data 0) (digitsAt data 2) (digitsAt data 4)) := by
  unfold decodeAttitude
  split
  · next hp hr hy => simp [hp, hr, hy] at h
  · rfl

/-- What a record says about the data it was decoded from (R211). -/
theorem digitsAt_of_decodeAttitude {data : List Byte} {p r y : BitVec 14}
    (h : decodeAttitude data = .attitude p r y) : ∃ a b c : Nat,
      (digitsAt data 0 = some a ∧ p = BitVec.ofNat 14 a) ∧ (digitsAt data 2 = some b ∧ r = BitVec.ofNat 14 b) ∧
      (digitsAt data 4 = some c ∧ y = BitVec.ofNat 14 c) := by
  unfold decodeAttitude at h
  split at h
  · next a b c hp hr hy =>
    cases h
    exact ⟨a, b, c, ⟨hp, rfl⟩, ⟨hr, rfl⟩, ⟨hy, rfl⟩⟩
  · cases h

/-- Row ATTITUDE with 6 data bytes reports what `decode_attitude` makes of them, and writes nothing else (R211, R217). -/
theorem exec_attitude_of_length {tail : List Byte} (h : (dataOf tail).length = Config.dlAttitude) (s : State) :
    exec (.attitude tail) s = .next (s.addLog (reported s.verb (decodeAttitude (dataOf tail)))) :=
  congrArg Host.Outcome.next (raise_checked_record h _ _ s)

/-- Settles O27: `bcd4` reads each field's hexadecimal spelling, and the three answers choose between the record and
the diagnostic. -/
theorem attitudeRecordOrDiagnostic : Obligations.AttitudeRecordOrDiagnostic := by
  intro s p1 p0 r1 r0 y1 y0 x digits decimal
  let data : List Byte := [p1, p0, r1, r0, y1, y0]
  have hexec : exec (.attitude [p1, p0, r1, r0, y1, y0, x]) s =
      .next (s.addLog (reported s.verb (decodeAttitude data))) := exec_attitude_of_length rfl s
  refine ⟨fun ⟨hp, hr, hy⟩ => ?record, fun h => ?diagnostic⟩
  case record =>
    have hp := bcd4_of_decimal hp
    have hr := bcd4_of_decimal hr
    have hy := bcd4_of_decimal hy
    rw [decodeAttitude_record (data := data) hp hr hy] at hexec
    exact ⟨_, _, _, toNat_ofNat_of_bcd4 hp, toNat_ofNat_of_bcd4 hr, toNat_ofNat_of_bcd4 hy, hexec⟩
  case diagnostic =>
    have hbad : (bcd4 p1 p0).isNone = true ∨ (bcd4 r1 r0).isNone = true ∨ (bcd4 y1 y0).isNone = true := by
      simp only [bcd4_isNone_iff, ← not_and_or]
      exact h
    obtain ⟨hpitch, hroll, hyaw⟩ := nondecFields_getLsbD (bcd4 p1 p0) (bcd4 r1 r0) (bcd4 y1 y0)
    rw [decodeAttitude_nondec (data := data) hbad] at hexec
    exact ⟨_, hpitch ▸ bcd4_isNone_iff p1 p0, hroll ▸ bcd4_isNone_iff r1 r0, hyaw ▸ bcd4_isNone_iff y1 y0, hexec⟩

/-! ### The range of a record -/

/-- A full report is the report of the very event that was generated (R260, R262). -/
theorem eq_of_full_mem_reported {v : BitVec 2} {e f : Event} (h : Transaction.rep (.full f) ∈ reported v e) :
    e = f := by
  unfold reported at h
  split at h
  · cases hdetail : repDetail v <;> simp_all
  · cases h

/-- A record among the reports of row ATTITUDE was decoded from its data (R155, R211). -/
theorem decodeAttitude_of_reported {s t : State} {tail : List Byte} {p r y : BitVec 14}
    (hexec : exec (.attitude tail) s = .next t)
    (h : Transaction.rep (.full (.attitude p r y)) ∈ t.log.drop s.log.length) :
    decodeAttitude (dataOf tail) = .attitude p r y := by
  cases hexec
  rw [raise_eq, addLog_log, List.drop_left] at h
  have hevent := eq_of_full_mem_reported h
  split at hevent
  · exact hevent
  · cases hevent

/-- The physical range of a bus that holds at most four decimal digits (R213, R215). -/
theorem angle_of_le {n : BitVec 14} (h : n.toNat ≤ 9999) :
    0 ≤ radians n ∧ radians n < 1 ∧ 0 ≤ degrees n := by
  have hnonneg : 0 ≤ radians n := by unfold radians; positivity
  have hlt : radians n < 1 := by
    rw [radians, div_lt_one (by norm_num)]
    exact_mod_cast Nat.lt_succ_of_le h
  have hfactor : 0 ≤ 180 / Real.pi := div_nonneg (by norm_num) Real.pi_pos.le
  exact ⟨hnonneg, hlt, mul_nonneg (Rat.cast_nonneg.mpr hnonneg) hfactor⟩

/-- Settles O28: each field of a record is a decimal reading of four digits, which is below 10000 ten-thousandths. -/
theorem attitudeStaysBelowOneRadian : Obligations.AttitudeStaysBelowOneRadian := by
  intro s t tail p r y hexec hrep
  have hfield : ∀ {i a : Nat} {n : BitVec 14}, digitsAt (dataOf tail) i = some a ∧ n = BitVec.ofNat 14 a →
      n.toNat ≤ 9999 ∧ 0 ≤ radians n ∧ radians n < 1 ∧ 0 ≤ degrees n := by
    rintro i a n ⟨ha, rfl⟩
    have hle := (toNat_ofNat_of_bcd4 ha).trans_le (bcd4_le ha)
    exact ⟨hle, angle_of_le hle⟩
  obtain ⟨a, b, c, hp, hr, hy⟩ := digitsAt_of_decodeAttitude (decodeAttitude_of_reported hexec hrep)
  simp only [List.forall_mem_cons, List.not_mem_nil, false_implies, implies_true, and_true]
  exact ⟨hfield hp, hfield hr, hfield hy⟩

end Sys2Proof.Safety
end

section
/-! The radio-sync decoder (45_decoder_radio_sync.md R225 to R229): the value of a 32-bit field on its bus, what the
inner markers decide, and what a frame of the right data length reports. -/

namespace Sys2Proof.Safety

open Sys2Proof.Machine

/-! ### The 32-bit fields -/

/-- `be32` by its four bytes, each at its own weight, the first most significant (R91). -/
theorem be32_eq (data : List Byte) (i : Nat) :
    be32 data i = (byteAt data i).toNat * 2 ^ 24 + (byteAt data (i + 1)).toNat * 2 ^ 16 +
      (byteAt data (i + 2)).toNat * 2 ^ 8 + (byteAt data (i + 3)).toNat := by
  simp only [be32, bigEndian, List.foldl_cons, List.foldl_nil]
  omega

/-- A 32-bit bus holds every value of `be32`, none wraps and none is negative (R91, R229). -/
theorem toNat_ofNat_be32 (data : List Byte) (i : Nat) :
    (BitVec.ofNat 32 (be32 data i)).toNat = (byteAt data i).toNat * 2 ^ 24 + (byteAt data (i + 1)).toNat * 2 ^ 16 +
      (byteAt data (i + 2)).toNat * 2 ^ 8 + (byteAt data (i + 3)).toNat := by
  have h0 := (byteAt data i).isLt
  have h1 := (byteAt data (i + 1)).isLt
  have h2 := (byteAt data (i + 2)).isLt
  have h3 := (byteAt data (i + 3)).isLt
  rw [BitVec.toNat_ofNat, be32_eq]
  omega

/-! ### The inner markers -/

/-- The inner markers are the bytes 0 and 2; no other byte is examined (R227). -/
theorem innerMarkers_iff (data : List Byte) :
    innerMarkers data = true ↔ byteAt data 0 = Config.marker ∧ byteAt data 2 = Config.syncSubtype := by
  simp only [innerMarkers, Bool.and_eq_true, decide_eq_true_eq]

/-- Both inner markers match: one record (R226). -/
theorem decodeRadioSync_record {data : List Byte}
    (h : byteAt data 0 = Config.marker ∧ byteAt data 2 = Config.syncSubtype) :
    decodeRadioSync data = [.radioSync (BitVec.ofNat 32 (be32 data 3)) (BitVec.ofNat 32 (be32 data 7))] :=
  if_pos ((innerMarkers_iff data).mpr h)

/-- One inner marker that differs: no event at all (R228). -/
theorem decodeRadioSync_silent {data : List Byte}
    (h : ¬ (byteAt data 0 = Config.marker ∧ byteAt data 2 = Config.syncSubtype)) :
    decodeRadioSync data = [] :=
  if_neg (mt (innerMarkers_iff data).mp h)

/-! ### A frame of the right data length -/

/-- Row RADIO_SYNC with 11 data bytes raises what `decode_radio_sync` makes of them, and writes nothing else (R226). -/
theorem exec_radioSync_of_length {tail : List Byte} (h : (dataOf tail).length = Config.dlRadioSync) (s : State) :
    exec (.radioSync tail) s = .next (raiseAll (decodeRadioSync (dataOf tail)) s) :=
  congrArg (fun es => Host.Outcome.next (raiseAll es s)) (if_pos h)

/-- Settles O29: the two inner markers choose between the one event, whose buses hold the fields' exact values, and
none. -/
theorem radioSyncRecordOrSilence : Obligations.RadioSyncRecordOrSilence := by
  intro s d0 d1 d2 a3 a2 a1 a0 b3 b2 b1 b0 x tail
  let data : List Byte := [d0, d1, d2, a3, a2, a1, a0, b3, b2, b1, b0]
  have hexec : exec (.radioSync tail) s = .next (raiseAll (decodeRadioSync data) s) := exec_radioSync_of_length rfl s
  refine ⟨fun hmatch => ?record, fun hmismatch => ?silence⟩
  case record =>
    rw [decodeRadioSync_record (data := data) hmatch, raiseAll_eq, List.flatMap_singleton] at hexec
    exact ⟨_, _, toNat_ofNat_be32 data 3, toNat_ofNat_be32 data 7, hexec⟩
  case silence =>
    rw [decodeRadioSync_silent (data := data) hmismatch, raiseAll_eq, List.flatMap_nil, addLog_nil] at hexec
    exact hexec

end Sys2Proof.Safety
end

section
/-! The flight-mode decoder (46_decoder_flight_mode.md R235 to R239): what is kept of the data, and that the length bus
holds the number of kept bytes of every frame. -/

namespace Sys2Proof.Safety

open Sys2Proof.Machine

/-- The text is the data but the bytes outside 0x20 to 0x7E, wherever they stand (R97, R237). -/
theorem printableText_dataOf (tail : List Byte) :
    printableText (dataOf tail) = tail.dropLast.filter fun c => 0x20 ≤ c.toNat && c.toNat ≤ 0x7E := rfl

/-- Neither the type byte nor the integrity byte of the 62 payload bytes is text (R239). -/
theorem length_printableText_le {tail : List Byte} (h : (Instr.flightMode tail).WellFormed) :
    (printableText (dataOf tail)).length ≤ 60 := by
  have htail : tail.length + 1 ≤ 62 := tailFault_eq_none.mp h
  calc (printableText (dataOf tail)).length
    _ ≤ (dataOf tail).length := List.length_filter_le _ _
    _ = tail.length - 1 := List.length_dropLast
    _ ≤ 60 := by omega

/-- A 6-bit bus holds the number of kept bytes of every frame, it never wraps (R235, R239). -/
theorem toNat_ofNat_length_printableText {tail : List Byte} (h : (Instr.flightMode tail).WellFormed) :
    (BitVec.ofNat 6 (printableText (dataOf tail)).length).toNat = (printableText (dataOf tail)).length := by
  have hle := length_printableText_le h
  rw [BitVec.toNat_ofNat]
  omega

/-- Row FLIGHT_MODE reports the kept bytes of its data, whatever their number, and writes nothing else (R236, R238). -/
theorem exec_flightMode (tail : List Byte) (s : State) :
    exec (.flightMode tail) s = .next (s.addLog (reported s.verb
      (.flightMode (BitVec.ofNat 6 (printableText (dataOf tail)).length) (printableText (dataOf tail))))) :=
  congrArg Host.Outcome.next (raise_eq (decodeFlightMode (dataOf tail)) s)

/-- Settles O30: the row reports the filtered data, and their number, at most 60, stands on its bus as it is. -/
theorem flightModeText : Obligations.FlightModeText := by
  intro s tail hwf
  have hexec := exec_flightMode tail s
  have hnumber := toNat_ofNat_length_printableText hwf
  have hmax := hnumber.trans_le (length_printableText_le hwf)
  rw [printableText_dataOf] at hexec hnumber hmax
  exact ⟨_, hnumber, hmax, hexec⟩

end Sys2Proof.Safety
end

section
/-! The handlers that decode no field (47_gps_vario_unknown.md R245 to R250): what GV_LEN_CHECK makes of a data length,
and that a type code outside the table reaches UNKNOWN. -/

namespace Sys2Proof.Safety

open Sys2Proof.Machine

/-! ### GPS and vario -/

/-- A row whose length condition stands under GV_LEN_CHECK reports its own event, unless the parameter is set and the
data has another length (D10, R158). -/
theorem raise_gvChecked (dlen expected : Nat) (t : Byte) (seen : Event) (s : State) :
    raise (if s.gvLenCheck = false ∨ dlen = expected then seen else lenMismatch t dlen expected) s =
      s.addLog (reported s.verb
        (if s.gvLenCheck = true ∧ dlen ≠ expected then lenMismatch t dlen expected else seen)) := by
  have hmismatch : s.gvLenCheck = true ∧ dlen ≠ expected ↔ ¬ (s.gvLenCheck = false ∨ dlen = expected) := by
    rw [not_or, Bool.not_eq_false]
  simp only [raise_eq, hmismatch, ite_not]

/-- A 6-bit bus holds the data length of every frame, it never wraps (R82, R90). -/
theorem toNat_ofNat_length_dataOf {tail : List Byte} (h : tail.length + 1 ≤ 62) :
    (BitVec.ofNat 6 (dataOf tail).length).toNat = (dataOf tail).length := by
  rw [BitVec.toNat_ofNat, dataOf, List.length_dropLast]
  omega

/-- Settles O31: both rows run the same check, each with its own type, length and event; `mm_dlen` holds every data
length. -/
theorem gpsAndVarioSeen : Obligations.GpsAndVarioSeen := fun s tail hmax =>
  ⟨_, toNat_ofNat_length_dataOf hmax,
    congrArg Host.Outcome.next (raise_gvChecked (dataOf tail).length Config.dlGps Config.tGps .gpsSeen s),
    congrArg Host.Outcome.next (raise_gvChecked (dataOf tail).length Config.dlVario Config.tVario .varioSeen s)⟩

/-! ### Unknown types -/

/-- A type code that is none of the seven falls through every test of the routing table (R102, R154). -/
theorem route_of_not_known {t : Byte} (h : t ∉ knownTypes) (tail : List Byte) : route t tail = .unknown t tail := by
  simp only [knownTypes, List.mem_cons, not_or] at h
  obtain ⟨hgps, hvario, hbattery, hlink, hattitude, hflightMode, hradioSync, _⟩ := h
  rw [route, if_neg hbattery, if_neg hlink, if_neg hattitude, if_neg hradioSync, if_neg hflightMode, if_neg hgps,
    if_neg hvario]

/-- Row UNKNOWN reports the raw type code, whatever the data, and writes nothing else (R248). -/
theorem exec_unknown (t : Byte) (tail : List Byte) (s : State) :
    exec (.unknown t tail) s = .next (s.addLog (reported s.verb (.unknown t))) :=
  congrArg Host.Outcome.next (raise_eq (.unknown t) s)

/-- Settles O32: the routing table's last branch, and the one event its row raises. -/
theorem unknownTypeReported : Obligations.UnknownTypeReported := fun s t tail ht =>
  ⟨route_of_not_known ht tail, exec_unknown t tail s⟩

end Sys2Proof.Safety
end


section
/-! The reports (48_reporting_and_mirror.md): what is transferred of an event at each level (R259, R260, R262), and the
codes of the kinds (R256). -/

namespace Sys2Proof.Safety

open Sys2Proof.Machine

/-! ### Levels -/

/-- The diagnostic kinds need level 3, every other kind level 1 (R259). -/
theorem minLevel_eq (k : EventKind) :
    minLevel k = if k ∈ [EventKind.raw, .lenMismatch, .attNondec] then 3 else 1 := by
  cases k <;> rfl

theorem reported_of_lt {v : BitVec 2} {e : Event} (h : v.toNat < minLevel e.kind) : reported v e = [] :=
  if_neg (Nat.not_le.mpr h)

theorem reported_of_le {v : BitVec 2} {e : Event} (h : minLevel e.kind ≤ v.toNat) :
    reported v e = [.rep (if 2 ≤ v.toNat then .full e else .kindOnly e.kind)] := by
  simp [reported, h, repDetail]

theorem signals_full (e : Event) :
    (Report.full e).signals.rep_kind = kindCode e.kind ∧ (Report.full e).signals.rep_detail = true := by
  cases e <;> exact ⟨rfl, rfl⟩

/-- Settles O42: the kind's minimum level is 1 or 3, and detail begins at level 2. -/
theorem reportGatingAndDetail : Obligations.ReportGatingAndDetail := by
  refine ⟨fun v e hk => ?_, fun v e hk => ?_, fun _ => rfl, signals_full⟩
  · have hmin : minLevel e.kind = 1 := by rw [minLevel_eq, if_neg hk]
    split_ifs with hzero hone
    · exact reported_of_lt (by omega)
    · rw [reported_of_le (by omega), if_neg (by omega)]
    · rw [reported_of_le (by omega), if_pos (by omega)]
  · have hmin : minLevel e.kind = 3 := by rw [minLevel_eq, if_pos hk]
    have hmax := v.isLt
    split_ifs with hthree
    · rw [reported_of_le (by omega), if_pos (by omega)]
    · exact reported_of_lt (by omega)

/-! ### Codes -/

/-- The fourteen kinds, in the order of R256. -/
def eventKinds : List EventKind :=
  [.battery, .linkStats, .attitude, .radioSync, .flightMode, .gpsSeen, .varioSeen, .unknown, .noise, .oversize, .empty,
    .raw, .lenMismatch, .attNondec]

/-- The kind that a code stands for. -/
def kindOfCode (c : BitVec 5) : Option EventKind := eventKinds.find? fun k => kindCode k == c

theorem kindOfCode_kindCode (k : EventKind) : kindOfCode (kindCode k) = some k := by
  cases k <;> rfl

/-- Settles O43: a kind is read back from its code, and no kind is read from the code 0. -/
theorem kindCodesAreDistinct : Obligations.KindCodesAreDistinct := by
  refine fun k l => ⟨fun hzero => ?_, fun hcode => ?_⟩
  · have hnone : kindOfCode 0 = none := rfl
    rw [← hzero, kindOfCode_kindCode] at hnone
    cases hnone
  · exact Option.some.inj (by rw [← kindOfCode_kindCode k, hcode, kindOfCode_kindCode l])

end Sys2Proof.Safety
end

section
/-! Runs that end and runs that are reset (70_reset_and_hazards.md R330, R331, R352): the run of a list of bytes up to
end of stream, `rst` asserted between two steps, and `rst` asserted inside a step. -/

namespace Sys2Proof.Safety

open Sys2Proof.Machine

/-! ### The run of a list of bytes -/

/-- No row of the transition table writes what the environment drives. -/
theorem tokenStep_environment {s u : State} {t : Token} (h : TokenStep s t u) :
    u.rst = s.rst ∧ u.inputs = s.inputs := by
  cases h with
  | payloadLast _ _ _ hd =>
    obtain ⟨ts, rfl, _⟩ := dispatch_reports hd
    exact ⟨rfl, rfl⟩
  | noise | marker | eosSeek | eosRdlen | oversize | empty | length | payloadByte | eosRdpay => exact ⟨rfl, rfl⟩

/-- The run ends with the row of an end of stream, and with no other (R123, R124, R130). -/
theorem tokenStep_done_iff {s u : State} {t : Token} (h : TokenStep s t u) : u.st = .done ↔ t = .eos := by
  cases h with
  | eosSeek | eosRdlen | eosRdpay => exact iff_of_true rfl rfl
  | noise | marker | oversize | empty | length | payloadByte | payloadLast => exact iff_of_false nofun nofun

/-- The row of a token adds that token to those read. -/
theorem tokenStep_tokensRead {s u : State} {t : Token} (h : TokenStep s t u) :
    tokensRead u.log = tokensRead s.log ++ [t] := by
  obtain ⟨rs, hlog⟩ := tokenStep_log h
  have hmir : tokensRead (tokenMirrored s t) = [] := by
    cases t with
    | eos => rfl
    | byte b => rw [tokenMirrored_byte]; split_ifs <;> rfl
  have hrx : tokensRead [.rx t] = [t] := rfl
  simp only [hlog, tokensRead_append, hmir, hrx, tokensRead_map_rep, List.append_nil]

/-- A ready core that is offered a token runs its row to a state that meets the invariants, with the token taken from
the inputs (R120). -/
theorem Inv.step_row {s : State} {t : Token} {is : List Input} (h : Inv s) (hready : rxReady s = true)
    (hin : s.inputs = .token t :: is) :
    ∃ u, step s = .next u ∧ TokenStep (Machine.setInputs is s) t u ∧ Inv u ∧ u.rst = false ∧ u.inputs = is := by
  obtain ⟨hrst, hst⟩ := rxReady_iff.mp hready
  obtain ⟨u, hu⟩ := (h.setInputs is).runToken_next hst t
  have hrow := tokenStep_of_runToken hu
  obtain ⟨hrst', hin'⟩ := tokenStep_environment hrow
  exact ⟨u, (step_token hready hin).trans hu, hrow, (h.setInputs is).tokenStep hrst hrow, hrst'.trans hrst, hin'⟩

/-- A ready core that is offered a byte is ready again after it. -/
theorem Inv.step_byte {s : State} {b : Byte} {is : List Input} (h : Inv s) (hready : rxReady s = true)
    (hin : s.inputs = .token (.byte b) :: is) :
    ∃ u, step s = .next u ∧ TokenStep (Machine.setInputs is s) (.byte b) u ∧ Inv u ∧ rxReady u = true ∧
      u.inputs = is := by
  obtain ⟨u, hu, hrow, hinv, hrst, hinputs⟩ := h.step_row hready hin
  have hst : u.st ≠ .done := fun hdone => by cases (tokenStep_done_iff hrow).mp hdone
  exact ⟨u, hu, hrow, hinv, rxReady_iff.mpr ⟨hrst, hst⟩, hinputs⟩

theorem bytesIn_append (bs cs : List Byte) : bytesIn (bs ++ cs) = bytesIn bs ++ bytesIn cs :=
  List.map_append

/-- A list of bytes is read in as many steps, and the core is ready after them. -/
theorem Inv.steps_bytes {s : State} {bs : List Byte} {is : List Input} (h : Inv s) (hready : rxReady s = true)
    (hin : s.inputs = bytesIn bs ++ is) :
    ∃ u, steps bs.length s = .next u ∧ Inv u ∧ rxReady u = true ∧ u.inputs = is ∧
      tokensRead u.log = tokensRead s.log ++ bs.map .byte := by
  induction bs generalizing s with
  | nil => exact ⟨s, rfl, h, hready, hin, (List.append_nil _).symm⟩
  | cons b bs ih =>
    obtain ⟨u, hu, hrow, hinv, hready', hinputs⟩ := h.step_byte (is := bytesIn bs ++ is) hready hin
    obtain ⟨w, hw, hinvw, hreadyw, hinputsw, hread⟩ := ih hinv hready' hinputs
    refine ⟨w, ?_, hinvw, hreadyw, hinputsw, ?_⟩
    · rw [List.length_cons, steps_succ, hu, andThen_next, hw]
    · rw [hread, tokenStep_tokensRead hrow, List.append_assoc]
      rfl

/-- Settles O22: the core is ready after any part of the bytes, and the row of the end of stream then ends the run. -/
theorem runEndsExactlyAtEndOfStream : Obligations.RunEndsExactlyAtEndOfStream := by
  refine fun s bs is h hready hin => ⟨?_, fun k hk => ?_⟩
  · obtain ⟨v, hv, hinv, hreadyv, hinputs, hread⟩ := h.steps_bytes hready hin
    obtain ⟨u, hu, hrow, _, _, hinputsu⟩ := hinv.step_row hreadyv hinputs
    refine ⟨u, ?_, (tokenStep_done_iff hrow).mpr rfl, hinputsu, ?_⟩
    · rw [steps_add, hv, andThen_next, steps_succ, hu]
      rfl
    · rw [tokenStep_tokensRead hrow, setInputs_log, hread]
  · have hsplit : s.inputs = bytesIn (bs.take k) ++ (bytesIn (bs.drop k) ++ .token .eos :: is) := by
      rw [hin, ← List.append_assoc, ← bytesIn_append, List.take_append_drop]
    obtain ⟨v, hv, _, hreadyv, _⟩ := h.steps_bytes hready hsplit
    rw [List.length_take, Nat.min_eq_left hk] at hv
    exact ⟨v, hv, (rxReady_iff.mp hreadyv).2⟩

/-! ### `rst` asserted between two steps -/

theorem rxReady_held {s : State} (h : s.rst = true) : rxReady s = false := by
  simp [rxReady, h]

/-- Settles O39: a drive of the pins that asserts `rst` takes effect in any state, and a core held in reset waits. -/
theorem assertedResetHoldsTheResetValues : Obligations.AssertedResetHoldsTheResetValues :=
  ⟨fun _ _ _ _ hin => ⟨_, step_pins hin, rfl, rfl, rfl, rfl⟩,
    fun _ n hrst hpins => steps_of_step_self (step_waiting_self (rxReady_held hrst) (takePins_eq_none hpins)) n⟩

/-! ### `rst` asserted inside a step -/

/-- What is left of a step's transactions is its first ones, as many as were accepted or one more (R331). -/
theorem cutOutputs_eq_take (n : Nat) (seen : Bool) (outs : List Transaction) :
    cutOutputs n seen outs = outs.take (if seen then n + 1 else n) := by
  cases seen with
  | false => simp [cutOutputs]
  | true => simp [cutOutputs, List.take_add]

/-- A reset inside the step that would have ended in `v` leaves a part of the log of `v` that holds the RX
transaction, and the reset values. -/
theorem runCut_of_runToken {s v : State} {t : Token} (n : Nat) (h : runToken t s = .next v) :
    ∃ rs : List Report, v.log = s.log ++ [.rx t] ++ (tokenMirrored s t ++ rs.map .rep) ∧
      runCut t n s = .next (enterReset { accept t s with
        log := s.log ++ [.rx t] ++ (tokenMirrored s t ++ rs.map Transaction.rep).take
          (if Config.withdrawnSeen s.freeIdx then n + 1 else n)
        freeIdx := s.freeIdx + 1 }) := by
  obtain ⟨rs, hlog⟩ := tokenStep_log (tokenStep_of_runToken h)
  rw [List.append_assoc] at hlog
  refine ⟨rs, hlog, ?_⟩
  simp only [runCut, h, andThen_next, cutOutputs_eq_take, hlog, accept_log, List.drop_left]

theorem step_cut {s : State} {t : Token} {n : Nat} {is : List Input} (hready : rxReady s = true)
    (hin : s.inputs = .cut t n :: is) : step s = runCut t n (setInputs is s) := by
  simp only [step_ready hready, readyCycle, hin]

/-- Settles O41: the log of the cut step is that of the whole step up to the accepted transactions, or one more. -/
theorem resetInsideAStepCutsItsTransactions : Obligations.ResetInsideAStepCutsItsTransactions := by
  intro s v t n is hready hin hstep
  have hrun : runToken t (setInputs is s) = .next v := (step_token (s := { s with inputs := .token t :: is })
    hready rfl).symm.trans hstep
  obtain ⟨rs, hlog, hcut⟩ := runCut_of_runToken n hrun
  generalize tokenMirrored (setInputs is s) t ++ rs.map .rep = outs at hlog hcut
  rw [setInputs_log] at hlog
  have htake (m : Nat) : v.log.take (s.log.length + 1 + m) = s.log ++ [.rx t] ++ outs.take m := by
    have hlen : s.log.length + 1 = (s.log ++ [Transaction.rx t]).length := by simp
    rw [hlog, hlen, List.take_length_add_append]
  refine ⟨_, (step_cut hready hin).trans hcut, List.prefix_append _ _, ?_, ?_, rfl, rfl, rfl, rfl, rfl, rfl, rfl⟩
  · rw [hlog]
    exact (List.prefix_append_right_inj _).mpr (List.take_prefix _ _)
  · rw [Nat.add_assoc _ n 1, htake, htake, setInputs_freeIdx]
    cases Config.withdrawnSeen s.freeIdx with
    | false => exact .inl rfl
    | true => exact .inr rfl

end Sys2Proof.Safety
end


section
/-! The mirror as a function of the input (40_frame_synchronizer.md R138; 48_reporting_and_mirror.md R264, R267). -/

namespace Sys2Proof.Safety

open Sys2Proof.Machine

/-- Where in a frame attempt the core stands: in RDPAY `LEN - CNT` bytes are to come. -/
def phaseOf (s : State) : Phase :=
  match s.st with
  | .seek => .seek
  | .rdlen => .rdlen
  | .rdpay => .rdpay (s.len.toNat - s.cnt.toNat)
  | .done => .seek

theorem phaseOf_seek {s : State} (h : s.st = .seek) : phaseOf s = .seek := by simp only [phaseOf, h]

theorem phaseOf_rdlen {s : State} (h : s.st = .rdlen) : phaseOf s = .rdlen := by simp only [phaseOf, h]

theorem phaseOf_rdpay {s : State} (h : s.st = .rdpay) : phaseOf s = .rdpay (s.len.toNat - s.cnt.toNat) := by
  simp only [phaseOf, h]

/-- A byte other than the marker in SEEK belongs to no attempt (R121). -/
abbrev Noise (s : State) (b : Byte) : Prop := s.st = .seek ∧ b ≠ Config.marker

theorem attemptBytes_noise {s u : State} {b : Byte} (h : TokenStep s (.byte b) u) (hnoise : Noise s b)
    (ts : List Token) : attemptBytes (phaseOf s) (.byte b :: ts) = attemptBytes (phaseOf u) ts := by
  obtain ⟨hst, hb⟩ := hnoise
  have hu : u.st = .seek := by
    cases h with
    | noise => rfl
    | marker => exact absurd rfl hb
    | oversize h' | empty h' | length h' | payloadByte h' | payloadLast h' => cases hst.symm.trans h'
  rw [phaseOf_seek hst, phaseOf_seek hu, attemptBytes]
  exact if_neg hb

/-- A byte that is no noise belongs to the attempt, and the row of the table goes on where the attempt goes on. -/
theorem attemptBytes_attempt {s u : State} {b : Byte} (h : TokenStep s (.byte b) u) (hnoise : ¬Noise s b)
    (ts : List Token) : attemptBytes (phaseOf s) (.byte b :: ts) = b :: attemptBytes (phaseOf u) ts := by
  cases h with
  | noise hst hb => exact absurd ⟨hst, hb⟩ hnoise
  | marker hst =>
    rw [phaseOf_seek hst, attemptBytes, phaseOf_rdlen rfl]
    exact if_pos rfl
  | oversize hst hb =>
    rw [phaseOf_rdlen hst, attemptBytes, if_pos (.inr hb), phaseOf_seek rfl]
  | empty hst =>
    rw [phaseOf_rdlen hst, attemptBytes, if_pos (.inl rfl), phaseOf_seek rfl]
  | length hst hpos hmax =>
    have hgood : ¬(b = 0 ∨ 62 < b.toNat) := by
      rintro (rfl | hover)
      · exact absurd hpos (by decide)
      · exact absurd hmax (Nat.not_le.mpr hover)
    rw [phaseOf_rdlen hst, attemptBytes, if_neg hgood, phaseOf_rdpay rfl]
    simp [toNat_lengthField hmax]
  | payloadByte hst hcnt _ =>
    rw [phaseOf_rdpay hst, attemptBytes, if_neg (by omega), phaseOf_rdpay rfl]
    simp only [setSt_len, setSt_cnt, setCnt_len, setCnt_cnt, payloadStored_len, cnt_succ hcnt, Nat.sub_sub]
  | payloadLast hst hcnt _ _ =>
    rw [phaseOf_rdpay hst, attemptBytes, if_pos (by omega), phaseOf_seek rfl]

theorem attemptBytes_nil (p : Phase) : attemptBytes p [] = [] := by
  cases p <;> rfl

theorem attemptBytes_eos (p : Phase) (ts : List Token) : attemptBytes p (.eos :: ts) = [] := by
  cases p <;> rfl

/-- What the row of a token adds to the mirror sequence. -/
theorem tokenStep_mirBytes {s u : State} {t : Token} (h : TokenStep s t u) :
    mirBytes u.log = mirBytes s.log ++ mirBytes (tokenMirrored s t) := by
  obtain ⟨rs, hlog⟩ := tokenStep_log h
  have hrx : mirBytes [.rx t] = [] := rfl
  simp only [hlog, mirBytes_append, hrx, mirBytes_map_rep, List.append_nil]

theorem mirBytes_mirrored (m : Bool) (b : Byte) : mirBytes (mirrored m b) = if m then [b] else [] := by
  cases m <;> rfl

/-- The mirror receives of one byte what the attempt has of it. -/
theorem mirBytes_attempt {s u : State} {b : Byte} (h : TokenStep s (.byte b) u) (ts : List Token) :
    mirBytes u.log ++ (if s.mirrorEn then attemptBytes (phaseOf u) ts else []) =
      mirBytes s.log ++ (if s.mirrorEn then attemptBytes (phaseOf s) (.byte b :: ts) else []) := by
  by_cases hnoise : Noise s b
  · rw [tokenStep_mirBytes h, tokenMirrored_noise hnoise.1 hnoise.2, attemptBytes_noise h hnoise]
    exact congrArg (· ++ _) (List.append_nil _)
  · rw [tokenStep_mirBytes h, tokenMirrored, if_neg hnoise, mirBytes_mirrored, attemptBytes_attempt h hnoise]
    cases s.mirrorEn <;> simp

/-- From anywhere in an attempt the mirror receives the rest of it and every attempt after it. -/
theorem Inv.steps_tokens_mirBytes {s : State} {ts : List Token} (h : Inv s) (hready : rxReady s = true)
    (hin : s.inputs = ts.map .token) :
    ∃ u, steps ts.length s = .next u ∧
      mirBytes u.log = mirBytes s.log ++ (if s.mirrorEn then attemptBytes (phaseOf s) ts else []) := by
  induction ts generalizing s with
  | nil => exact ⟨s, rfl, by rw [attemptBytes_nil, ite_self, List.append_nil]⟩
  | cons t ts ih =>
    rw [List.length_cons, steps_succ]
    cases t with
    | eos =>
      obtain ⟨u, hu, hrow, _, _, hinputs⟩ := h.step_row hready hin
      have hdone : u.st = .done := (tokenStep_done_iff hrow).mpr rfl
      have hpins : takePins u.inputs = none := takePins_eq_none fun r v m hmem => by simp [hinputs] at hmem
      refine ⟨u, by rw [hu, andThen_next, steps_of_step_self (step_waiting_self (rxReady_done hdone) hpins)], ?_⟩
      rw [tokenStep_mirBytes hrow, attemptBytes_eos, ite_self]
      rfl
    | byte b =>
      obtain ⟨u, hu, hrow, hinv, hready', hinputs⟩ := h.step_byte hready hin
      obtain ⟨w, hw, hmir⟩ := ih hinv hready' hinputs
      have hmirror : u.mirrorEn = s.mirrorEn := (tokenStep_configuration hrow).2
      refine ⟨w, by rw [hu, andThen_next, hw], ?_⟩
      rw [hmir, hmirror]
      exact mirBytes_attempt hrow ts

/-- Settles O45: in SEEK no attempt has begun. -/
theorem mirrorIsTheFrameAttempts : Obligations.MirrorIsTheFrameAttempts := by
  intro s ts h hready hst hin
  obtain ⟨u, hu, hmir⟩ := h.steps_tokens_mirBytes hready hin
  exact ⟨u, hu, by rw [hmir, phaseOf_seek hst]⟩

end Sys2Proof.Safety
end


section
/-! Noninterference: what VERB and MIRROR_EN change (48_reporting_and_mirror.md R262, R266, R269). Machines that differ
only in them, in the log and in what is offered run the same rows and raise the same events for the same token; so of
the two `MIRROR_EN` alone says what is mirrored, and `VERB` alone what is reported, unless a reset cuts the step. -/

namespace Sys2Proof.Safety

open Sys2Proof.Machine

/-! ### The events of a row -/

/-- Level 3 reports every event with its fields (R259, R260). -/
theorem reported_three (e : Event) : reported 3 e = [.rep (.full e)] := by
  have hmin : minLevel e.kind ≤ 3 := by
    rw [minLevel_eq]
    split_ifs <;> decide
  rw [reported_of_le hmin, if_pos (by decide)]

theorem flatMap_reported_three_injective : Function.Injective fun es : List Event => es.flatMap (reported 3) := by
  have heq : (fun es : List Event => es.flatMap (reported 3)) = List.map fun e => .rep (.full e) := by
    funext es
    rw [funext reported_three, List.map_eq_flatMap]
  rw [heq, List.map_injective_iff]
  rintro e _ ⟨⟩
  rfl

/-- A FRAME row raises events of no framing kind, which depend on its type byte, its tail and `GV_LEN_CHECK` alone:
what `runRow_raises_rowEvents` knows of their kinds at level 3 holds at every level. -/
theorem runRow_raises_same (ty : Byte) (tail : List Byte) (s : State) :
    ∃ es, RowEvents es ∧ ∀ r : State, r.gvLenCheck = s.gvLenCheck → runRow ty tail r = .next (raiseAll es r) := by
  obtain ⟨es, hes⟩ := runRow_raises ty tail s
  obtain ⟨fs, hfs, hrun⟩ := runRow_raises_rowEvents ty tail { s with verb := 3, log := [] }
  have hraise : raiseAll fs { s with verb := 3, log := [] } = raiseAll es { s with verb := 3, log := [] } :=
    Host.Outcome.next.inj (hrun.symm.trans (hes _ rfl))
  have hlogs : fs.flatMap (reported 3) = es.flatMap (reported 3) := by
    simpa [raiseAll_eq] using congrArg State.log hraise
  have hsame : fs = es := flatMap_reported_three_injective hlogs
  exact ⟨es, hsame ▸ hfs, hes⟩

/-- `t` is `s` but for `VERB`, `MIRROR_EN`, the inputs and the log. -/
inductive SameCore (s : State) : State → Prop where
  | mk (v : BitVec 2) (m : Bool) (is : List Input) (l : List Transaction) :
      SameCore s { s with verb := v, mirrorEn := m, inputs := is, log := l }

theorem SameCore.refl (s : State) : SameCore s s := .mk s.verb s.mirrorEn s.inputs s.log

theorem SameCore.len {s t : State} (h : SameCore s t) : t.len = s.len := by cases h; rfl

theorem SameCore.buf {s t : State} (h : SameCore s t) : t.buf = s.buf := by cases h; rfl

theorem SameCore.gvLenCheck {s t : State} (h : SameCore s t) : t.gvLenCheck = s.gvLenCheck := by cases h; rfl

/-- A dispatch raises events other than NOISE, the same whatever `VERB`, `MIRROR_EN` and the log are. -/
theorem dispatch_events {s u : State} (h : dispatch s = .next u) :
    ∃ es : List Event, (∀ e ∈ es, e.kind ≠ .noise) ∧
      ∀ t, SameCore s t → dispatch t = .next (t.addLog (es.flatMap (reported t.verb))) := by
  obtain ⟨ty, tail, hty, htail, _⟩ := dispatch_next h
  obtain ⟨es, ⟨_, hkinds⟩, hes⟩ := runRow_raises_same ty tail s
  refine ⟨.raw s.len (ty :: tail) :: es, ?_, ?_⟩
  · rintro e (_ | ⟨_, he⟩) hnoise
    · cases hnoise
    · exact hkinds e he (by simp [hnoise])
  · intro t ht
    have htail' : loadBytes t 1 (t.len.toNat - 1) = .ok tail := by
      rw [ht.len, loadBytes_congr ht.buf, htail]
    simp only [dispatch, (load_congr (congrArg (·.read 0) ht.buf)).trans hty, htail']
    rw [hes (raise _ t) ht.gvLenCheck, ht.len, raiseAll_eq, raise_eq, addLog_addLog, List.flatMap_cons, addLog_verb]

/-- `u` has the log of `s` after a step that consumed `k` and raised `es` (R65). -/
def LogAfter (s : State) (k : Token) (es : List Event) (u : State) : Prop :=
  u.log = s.log ++ [.rx k] ++ tokenMirrored s k ++ es.flatMap (reported s.verb)

/-- The row that a token selects and the events it raises are the same whatever `VERB`, `MIRROR_EN`, the rest of the
inputs and the log are; NOISE is raised for a noise byte only. -/
theorem tokenStep_events {s u : State} {k : Token} (h : TokenStep s k u) :
    ∃ es : List Event, (∀ e ∈ es, e.kind = .noise → ∃ b, k = .byte b ∧ Noise s b) ∧
      ∀ t, SameCore s t → ∃ v, TokenStep t k v ∧ SameCore u v ∧ LogAfter t k es v := by
  cases h with
  | @noise b hst hb =>
    exact ⟨[.noise b], fun _ _ _ => ⟨b, rfl, hst, hb⟩, fun _ ⟨_, _, _, _⟩ =>
      ⟨_, .noise hst hb, .mk _ _ _ _, by simp [LogAfter, tokenMirrored_noise, hst, hb]⟩⟩
  | marker hst =>
    exact ⟨[], nofun, fun _ ⟨_, _, _, _⟩ =>
      ⟨_, .marker hst, .mk _ _ _ _, by simp [LogAfter, tokenMirrored_marker]⟩⟩
  | eosSeek hst =>
    exact ⟨[], nofun, fun _ ⟨_, _, _, _⟩ =>
      ⟨_, .eosSeek hst, .mk _ _ _ _, by simp [LogAfter, tokenMirrored]⟩⟩
  | eosRdlen hst =>
    exact ⟨[], nofun, fun _ ⟨_, _, _, _⟩ =>
      ⟨_, .eosRdlen hst, .mk _ _ _ _, by simp [LogAfter, tokenMirrored]⟩⟩
  | @oversize b hst hb =>
    exact ⟨[.oversize b], by simp [Event.kind], fun _ ⟨_, _, _, _⟩ =>
      ⟨_, .oversize hst hb, .mk _ _ _ _, by simp [LogAfter, tokenMirrored_attempt, hst]⟩⟩
  | empty hst =>
    exact ⟨[.empty], by simp [Event.kind], fun _ ⟨_, _, _, _⟩ =>
      ⟨_, .empty hst, .mk _ _ _ _, by simp [LogAfter, tokenMirrored_attempt, hst]⟩⟩
  | length hst hpos hmax =>
    exact ⟨[], nofun, fun _ ⟨_, _, _, _⟩ =>
      ⟨_, .length hst hpos hmax, .mk _ _ _ _, by simp [LogAfter, tokenMirrored_attempt, hst]⟩⟩
  | payloadByte hst hcnt hbuf =>
    exact ⟨[], nofun, fun _ ⟨_, _, _, _⟩ =>
      ⟨_, .payloadByte hst hcnt hbuf, .mk _ _ _ _, by simp [LogAfter, tokenMirrored_attempt, hst]⟩⟩
  | @payloadLast b w hst hcnt hbuf hd =>
    obtain ⟨es, hkinds, hes⟩ := dispatch_events hd
    cases (hes _ (.refl _)).symm.trans hd
    exact ⟨es, fun e he hnoise => absurd hnoise (hkinds e he), fun _ ⟨_, _, _, _⟩ =>
      ⟨_, .payloadLast hst hcnt hbuf (hes _ (.mk _ _ _ _)), .mk _ _ _ _,
        by simp [LogAfter, tokenMirrored_attempt, hst]⟩⟩
  | eosRdpay hst =>
    exact ⟨[], nofun, fun _ ⟨_, _, _, _⟩ =>
      ⟨_, .eosRdpay hst, .mk _ _ _ _, by simp [LogAfter, tokenMirrored]⟩⟩

/-! ### What two such machines have in common -/

/-- The two mirror alike and have received the same mirror sequence. -/
def SameMirror (s t : State) : Prop := s.mirrorEn = t.mirrorEn ∧ mirBytes s.log = mirBytes t.log

/-- The two report at the same level and have sent the same reports. -/
def SameReports (s t : State) : Prop := s.verb = t.verb ∧ reports s.log = reports t.log

/-- MIR transactions are no reports. -/
theorem reports_tokenMirrored (s : State) (k : Token) : reports (tokenMirrored s k) = [] := by
  cases k with
  | eos => rfl
  | byte b => rw [tokenMirrored_byte]; split_ifs <;> rfl

theorem reports_of_logAfter {s u : State} {k : Token} {es : List Event} (h : LogAfter s k es u) :
    reports u.log = reports s.log ++ reports (es.flatMap (reported s.verb)) := by
  have hrx : reports [.rx k] = [] := rfl
  rw [LogAfter] at h
  simp only [h, reports_append, hrx, reports_tokenMirrored, List.append_nil]

theorem SameCore.tokenMirrored_eq {s t : State} (h : SameCore s t) (hm : s.mirrorEn = t.mirrorEn) (k : Token) :
    tokenMirrored s k = tokenMirrored t k := by
  obtain ⟨v, m, is, l⟩ := h
  cases k with
  | eos => rfl
  | byte b => simp only [tokenMirrored, hm]

/-- The two have the same core and are offered the same. -/
structure Alike (s t : State) : Prop where
  core : SameCore s t
  inputs : t.inputs = s.inputs

theorem SameCore.rxReady_eq {s t : State} (h : SameCore s t) : rxReady t = rxReady s := by cases h; rfl

theorem SameCore.setInputs {s t : State} (h : SameCore s t) (is : List Input) :
    Alike (setInputs is s) (setInputs is t) := by
  refine ⟨?_, rfl⟩
  cases h; exact .mk _ _ _ _

/-! ### The steps of two such machines -/

/-- Both run the row of a token and raise the same events. -/
theorem SameCore.tokenStep {s t u : State} {k : Token} (h : SameCore s t) (hrow : TokenStep s k u) :
    ∃ v es, TokenStep t k v ∧ SameCore u v ∧ LogAfter s k es u ∧ LogAfter t k es v ∧
      ∀ e ∈ es, e.kind = .noise → ∃ b, k = .byte b ∧ Noise s b := by
  obtain ⟨es, hnoise, hsame⟩ := tokenStep_events hrow
  obtain ⟨u', hrow', _, hlog⟩ := hsame s (.refl s)
  obtain rfl : u' = u := Host.Outcome.next.inj (hrow'.runToken_eq.symm.trans hrow.runToken_eq)
  obtain ⟨v, hrowv, hcore, hlogv⟩ := hsame t h
  exact ⟨v, es, hrowv, hcore, hlog, hlogv, hnoise⟩

/-- The rows of a token mirror the same. -/
theorem SameMirror.tokenStep {s t u v : State} {k : Token} (h : SameMirror s t) (hcore : SameCore s t)
    (hu : TokenStep s k u) (hv : TokenStep t k v) : SameMirror u v := by
  obtain ⟨hm, hbytes⟩ := h
  obtain ⟨_, hmu⟩ := tokenStep_configuration hu
  obtain ⟨_, hmv⟩ := tokenStep_configuration hv
  refine ⟨?_, ?_⟩
  · rw [hmu, hmv, hm]
  · rw [tokenStep_mirBytes hu, tokenStep_mirBytes hv, hbytes, hcore.tokenMirrored_eq hm]

/-- Consuming a token does the same to both, and keeps what they have in common. -/
theorem Alike.runToken {s t u : State} {k : Token} (h : Alike s t) (hrun : runToken k s = .next u) :
    ∃ v, runToken k t = .next v ∧ Alike u v ∧ (SameMirror s t → SameMirror u v) ∧
      (SameReports s t → SameReports u v) := by
  have hu := tokenStep_of_runToken hrun
  obtain ⟨v, es, hv, hcore, hlogu, hlogv, _⟩ := h.core.tokenStep hu
  obtain ⟨_, hinu⟩ := tokenStep_environment hu
  obtain ⟨_, hinv⟩ := tokenStep_environment hv
  obtain ⟨hverbu, _⟩ := tokenStep_configuration hu
  obtain ⟨hverbv, _⟩ := tokenStep_configuration hv
  refine ⟨v, hv.runToken_eq, ⟨hcore, ?_⟩, fun hm => hm.tokenStep h.core hu hv, fun ⟨hverb, hreports⟩ => ⟨?_, ?_⟩⟩
  · rw [hinu, hinv, h.inputs]
  · rw [hverbu, hverbv, hverb]
  · rw [reports_of_logAfter hlogu, reports_of_logAfter hlogv, hreports, hverb]

/-- The mirror sequence of a cut step does not depend on its reports, which come after the mirror's byte (R65). -/
theorem mirBytes_take_append_reports (xs : List Transaction) (rs : List Report) (n : Nat) :
    mirBytes ((xs ++ rs.map Transaction.rep).take n) = mirBytes (xs.take n) := by
  rw [List.take_append, ← List.map_take, mirBytes_append, mirBytes_map_rep, List.append_nil]

/-- A reset inside a step does the same to both, and cuts the same mirror bytes. -/
theorem Alike.runCut {s t u : State} {k : Token} {n : Nat} (h : Alike s t) (hcut : runCut k n s = .next u) :
    ∃ v, runCut k n t = .next v ∧ Alike u v ∧ (SameMirror s t → SameMirror u v) := by
  obtain ⟨done, hrun, _⟩ := runCut_next hcut
  obtain ⟨done', hrun', _⟩ := h.runToken hrun
  obtain ⟨rs, _, hu⟩ := runCut_of_runToken n hrun
  obtain ⟨rs', _, hv⟩ := runCut_of_runToken n hrun'
  cases hu.symm.trans hcut
  obtain ⟨hcore, hinputs⟩ := h
  refine ⟨_, hv, ⟨?_, hinputs⟩, fun ⟨hm, hbytes⟩ => ⟨hm, ?_⟩⟩
  · cases hcore; exact .mk _ _ _ _
  · have hfree : s.freeIdx = t.freeIdx := by cases hcore; rfl
    simp only [enterReset_log, mirBytes_append _ (List.take _ _), mirBytes_append s.log, mirBytes_append t.log,
      mirBytes_take_append_reports, hbytes, hcore.tokenMirrored_eq hm, hfree]

/-- A drive of the pins does the same to both, and keeps what they have in common. -/
theorem Alike.drivePins {s t : State} (h : Alike s t) (r : Bool) (v : BitVec 2) (m : Bool) :
    Alike (drivePins r v m s) (drivePins r v m t) ∧
      (SameMirror s t → SameMirror (drivePins r v m s) (drivePins r v m t)) ∧
      (SameReports s t → SameReports (drivePins r v m s) (drivePins r v m t)) := by
  have hrst : t.rst = s.rst := by cases h.core; rfl
  rcases drivePins_cases r v m s with ⟨rfl, hd⟩ | ⟨rfl, hs, hd⟩ | ⟨rfl, hs, hd⟩ <;> rw [hd]
  · refine ⟨⟨?_, h.inputs⟩, id, id⟩
    cases h.core; exact .mk _ _ _ _
  · rw [drivePins_release v m (hrst.trans hs)]
    refine ⟨⟨?_, h.inputs⟩, fun ⟨_, hbytes⟩ => ⟨rfl, ?_⟩, fun ⟨_, hreports⟩ => ⟨rfl, ?_⟩⟩
    · cases h.core; exact .mk _ _ _ _
    · rw [releaseReset_log, releaseReset_log, mirBytes_append, mirBytes_append, hbytes]
    · rw [releaseReset_log, releaseReset_log, reports_append, reports_append, hreports]
  · rw [drivePins_ignored v m (hrst.trans hs)]
    exact ⟨h, id, id⟩

/-- One step does the same to both. The mirror sequences stay equal, and so do the report sequences if no reset cuts
the step: where it cuts the step depends on whether a byte is mirrored before the reports (R331). -/
theorem Alike.step {s t u : State} (h : Alike s t) (hstep : step s = .next u) :
    ∃ v, step t = .next v ∧ Alike u v ∧ (SameMirror s t → SameMirror u v) ∧
      ((∀ x k, Input.cut x k ∉ s.inputs) → SameReports s t → SameReports u v) := by
  have hin := h.inputs
  have hready := h.core.rxReady_eq
  rcases step_next hstep with
    ⟨hr, ⟨hi, rfl⟩ | ⟨k, is, hi, hrun⟩ | ⟨k, n, is, hi, hcut⟩ | ⟨r, v, m, is, hi, rfl⟩ | ⟨is, hi, rfl⟩⟩ |
    ⟨hr, ⟨hi, rfl⟩ | ⟨r, v, m, is, hi, rfl⟩⟩
  · exact ⟨t, by simp only [step_ready (hready.trans hr), readyCycle, hin, hi], h, id, fun _ => id⟩
  · obtain ⟨v, hv, halike, hmirror, hreports⟩ := (h.core.setInputs is).runToken hrun
    exact ⟨v, (step_token (hready.trans hr) (hin.trans hi)).trans hv, halike, hmirror, fun _ => hreports⟩
  · obtain ⟨v, hv, halike, hmirror⟩ := (h.core.setInputs is).runCut hcut
    exact ⟨v, (step_cut (hready.trans hr) (hin.trans hi)).trans hv, halike, hmirror,
      fun hnocut => absurd (hi ▸ List.mem_cons_self) (hnocut k n)⟩
  · obtain ⟨halike, hmirror, hreports⟩ := (h.core.setInputs is).drivePins r v m
    exact ⟨_, step_pins (hin.trans hi), halike, hmirror, fun _ => hreports⟩
  · exact ⟨_, by simp only [step_ready (hready.trans hr), readyCycle, hin, hi], h.core.setInputs is, id, fun _ => id⟩
  · exact ⟨t, step_waiting_self (hready.trans hr) (hin ▸ hi), h, id, fun _ => id⟩
  · obtain ⟨halike, hmirror, hreports⟩ := (h.core.setInputs is).drivePins r v m
    exact ⟨_, by simp only [step_waiting (hready.trans hr), waitingCycle, hin, hi], halike, hmirror, fun _ => hreports⟩

/-! ### The level -/

theorem Alike.of_sameButReports {s t : State} (h : SameButReports s t) : Alike s t ∧ s.mirrorEn = t.mirrorEn := by
  have hcore : SameCore s { s with verb := t.verb, log := t.log } := .mk t.verb s.mirrorEn s.inputs t.log
  have heq : { s with verb := t.verb, log := t.log } = t := h
  rw [heq] at hcore
  exact ⟨⟨hcore, (congrArg State.inputs heq).symm⟩, (congrArg State.mirrorEn heq :)⟩

theorem Alike.sameButReports {s t : State} (h : Alike s t) (hm : s.mirrorEn = t.mirrorEn) : SameButReports s t := by
  obtain ⟨⟨v, m, is, l⟩, hinputs⟩ := h
  obtain rfl : is = s.inputs := hinputs
  obtain rfl : s.mirrorEn = m := hm
  rfl

/-- Settles O47: machines that are alike and mirror the same stay so, whatever their levels. -/
theorem levelAffectsReportsOnly : Obligations.LevelAffectsReportsOnly := by
  intro n s t u hsame hmir hsteps
  obtain ⟨halike, hm⟩ := Alike.of_sameButReports hsame
  obtain ⟨v, hv, halike', hm', hmir'⟩ := steps_simulation (R := fun s t => Alike s t ∧ SameMirror s t)
    (fun ⟨hs, hmirror⟩ hstep => by
      obtain ⟨v, hv, hu, hkeep, _⟩ := hs.step hstep
      exact ⟨v, hv, hu, hkeep hmirror⟩)
    n ⟨halike, hm, hmir⟩ hsteps
  exact ⟨v, hv, halike'.sameButReports hm', hmir'⟩

/-! ### The mirror -/

theorem Alike.of_sameButMirror {s t : State} (h : SameButMirror s t) : Alike s t ∧ s.verb = t.verb := by
  have hcore : SameCore s { s with mirrorEn := t.mirrorEn, log := t.log } := .mk s.verb t.mirrorEn s.inputs t.log
  have heq : { s with mirrorEn := t.mirrorEn, log := t.log } = t := h
  rw [heq] at hcore
  exact ⟨⟨hcore, (congrArg State.inputs heq).symm⟩, (congrArg State.verb heq :)⟩

theorem Alike.sameButMirror {s t : State} (h : Alike s t) (hv : s.verb = t.verb) : SameButMirror s t := by
  obtain ⟨⟨v, m, is, l⟩, hinputs⟩ := h
  obtain rfl : is = s.inputs := hinputs
  obtain rfl : s.verb = v := hv
  rfl

theorem takePins_subset {is js : List Input} {p : Bool × BitVec 2 × Bool} (h : takePins is = some (p, js)) :
    js ⊆ is := by
  induction is generalizing js with
  | nil => cases h
  | cons i is ih =>
    cases i with
    | pins r v m => cases h; exact List.subset_cons_self _ _
    | token | cut | idle =>
      obtain ⟨⟨q, ks⟩, hrest, hjs⟩ := Option.map_eq_some_iff.mp h
      cases hjs
      exact List.cons_subset_cons _ (ih hrest)

theorem drivePins_inputs (r : Bool) (v : BitVec 2) (m : Bool) (s : State) : (drivePins r v m s).inputs = s.inputs := by
  rcases drivePins_cases r v m s with ⟨_, hd⟩ | ⟨_, _, hd⟩ | ⟨_, _, hd⟩ <;> rw [hd] <;> rfl

/-- No step adds to what the environment does. -/
theorem step_inputs_subset {s u : State} (h : step s = .next u) : u.inputs ⊆ s.inputs := by
  rcases step_next h with
    ⟨_, ⟨_, rfl⟩ | ⟨k, is, hi, hrun⟩ | ⟨k, n, is, hi, hcut⟩ | ⟨r, v, m, is, hi, rfl⟩ | ⟨is, hi, rfl⟩⟩ |
    ⟨_, ⟨_, rfl⟩ | ⟨r, v, m, is, hi, rfl⟩⟩
  · exact List.Subset.refl _
  · rw [(tokenStep_environment (tokenStep_of_runToken hrun)).2, hi]
    exact List.subset_cons_self _ _
  · obtain ⟨done, _, rfl⟩ := runCut_next hcut
    rw [hi]
    exact List.subset_cons_self _ _
  · rw [drivePins_inputs, hi]
    exact List.subset_cons_self _ _
  · rw [hi]
    exact List.subset_cons_self _ _
  · exact List.Subset.refl _
  · rw [drivePins_inputs]
    exact takePins_subset hi

/-- Settles O48: machines that are alike and report the same stay so, whether they mirror or not. -/
theorem mirrorAffectsMirrorOnly : Obligations.MirrorAffectsMirrorOnly := by
  intro n s t u hsame hreports hnocut hsteps
  obtain ⟨halike, hverb⟩ := Alike.of_sameButMirror hsame
  obtain ⟨v, hv, halike', ⟨hverb', hreports'⟩, _⟩ := steps_simulation
    (R := fun s t => Alike s t ∧ SameReports s t ∧ ∀ x k, Input.cut x k ∉ s.inputs)
    (fun ⟨hs, hsame, hcut⟩ hstep => by
      obtain ⟨v, hv, hu, _, hkeep⟩ := hs.step hstep
      exact ⟨v, hv, hu, hkeep hcut hsame, fun x k hmem => hcut x k (step_inputs_subset hstep hmem)⟩)
    n ⟨halike, ⟨hverb, hreports⟩, hnocut⟩ hsteps
  exact ⟨v, hv, halike'.sameButMirror hverb', hreports'⟩

end Sys2Proof.Safety
end


section
/-! The replay of a mirror sequence (48_reporting_and_mirror.md R267, 70_reset_and_hazards.md R348): the machine that is
offered the bytes of the frame attempts alone passes over the noise and does the rest. -/

namespace Sys2Proof.Safety

open Sys2Proof.Machine

/-- The reports other than NOISE. -/
def withoutNoise (rs : List Report) : List Report := rs.filter fun r => reportKind r != .noise

theorem withoutNoise_append (rs qs : List Report) : withoutNoise (rs ++ qs) = withoutNoise rs ++ withoutNoise qs :=
  List.filter_append ..

theorem reportKind_of_mem_reported {v : BitVec 2} {e : Event} {r : Report} (h : r ∈ reports (reported v e)) :
    reportKind r = e.kind := by
  rcases reported_cases v e with he | he | he <;> rw [he] at h
  · cases h
  · cases List.mem_singleton.mp h; rfl
  · cases List.mem_singleton.mp h; rfl

/-- What is reported of events other than noise is no NOISE. -/
theorem withoutNoise_reported {v : BitVec 2} {es : List Event} (h : ∀ e ∈ es, e.kind ≠ .noise) :
    withoutNoise (reports (es.flatMap (reported v))) = reports (es.flatMap (reported v)) := by
  refine List.filter_eq_self.mpr fun r hr => ?_
  induction es with
  | nil => cases hr
  | cons e es ih =>
    obtain ⟨he, hes⟩ := List.forall_mem_cons.mp h
    rw [List.flatMap_cons, reports_append] at hr
    rcases List.mem_append.mp hr with hr | hr
    · simp [reportKind_of_mem_reported hr, he]
    · exact ih hes hr

/-- The machine `t` has mirrored what `s` has, and reported it without the noise, since the reports were `base`. -/
structure Replays (base : List Report) (s t : State) : Prop where
  core : SameCore s t
  mirror : SameMirror s t
  verb : s.verb = t.verb
  reported : ∃ rs, reports s.log = base ++ rs ∧ reports t.log = base ++ withoutNoise rs

theorem Replays.setInputs {base : List Report} {s t : State} (h : Replays base s t) (is js : List Input) :
    Replays base (setInputs is s) (setInputs js t) := by
  refine ⟨?_, h.mirror, h.verb, h.reported⟩
  cases h.core; exact .mk _ _ _ _

/-- A noise byte that `t` is not offered leaves the core as it was and is not mirrored (R121). -/
theorem Replays.noise {base : List Report} {s t u : State} {b : Byte} (h : Replays base s t)
    (hrow : TokenStep s (.byte b) u) (hnoise : Noise s b) : Replays base u t := by
  obtain ⟨hst, hb⟩ := hnoise
  obtain rfl : setSt .seek (raise (.noise b) (accept (.byte b) s)) = u :=
    Host.Outcome.next.inj ((TokenStep.noise hst hb).runToken_eq.symm.trans hrow.runToken_eq)
  have hrx : reports [.rx (.byte b)] = [] := rfl
  have hquiet : withoutNoise (reports (Machine.reported s.verb (.noise b))) = [] :=
    List.filter_eq_nil_iff.mpr fun r hr => by simp [reportKind_of_mem_reported hr, Event.kind]
  obtain ⟨hcore, ⟨hm, hbytes⟩, hverb, rs, hs, ht⟩ := h
  refine ⟨?_, ⟨hm, ?_⟩, hverb, rs ++ reports (Machine.reported s.verb (.noise b)), ?_, ?_⟩
  · obtain ⟨v, m, is, l⟩ := hcore
    exact hst ▸ .mk v m is l
  · rw [tokenStep_mirBytes hrow, tokenMirrored_noise hst hb, ← hbytes]
    exact List.append_nil _
  · rw [setSt_log, raise_log, accept_log, accept_verb, reports_append, reports_append, hrx, hs, List.append_nil,
      List.append_assoc]
  · rw [ht, withoutNoise_append, hquiet, List.append_nil]

/-- A byte of an attempt is consumed by both machines, and reported without NOISE. -/
theorem Replays.attempt {base : List Report} {s t u : State} {b : Byte} (h : Replays base s t)
    (hrow : TokenStep s (.byte b) u) (hnoise : ¬Noise s b) : ∃ v, TokenStep t (.byte b) v ∧ Replays base u v := by
  obtain ⟨hcore, hmirror, hverb, rs, hs, ht⟩ := h
  obtain ⟨v, es, hrowv, hcorev, hlogu, hlogv, hkinds⟩ := hcore.tokenStep hrow
  have hquiet : ∀ e ∈ es, e.kind ≠ .noise := by
    rintro e he hkind
    obtain ⟨_, ⟨rfl⟩, hb⟩ := hkinds e he hkind
    exact hnoise hb
  have hverbs : u.verb = v.verb := by
    rw [(tokenStep_configuration hrow).1, (tokenStep_configuration hrowv).1, hverb]
  refine ⟨v, hrowv, hcorev, hmirror.tokenStep hcore hrow hrowv, hverbs,
    rs ++ reports (es.flatMap (Machine.reported s.verb)), ?_, ?_⟩
  · rw [reports_of_logAfter hlogu, hs, List.append_assoc]
  · rw [reports_of_logAfter hlogv, ht, withoutNoise_append, withoutNoise_reported hquiet, hverb, List.append_assoc]

/-- While one machine reads some bytes, the other replays the rest of the attempt they begin in and every attempt after
it. -/
theorem Replays.steps {base : List Report} {s t : State} {bs : List Byte} (h : Replays base s t) (hinv : Inv s)
    (hready : rxReady s = true) (hin : s.inputs = bytesIn bs)
    (hreplay : t.inputs = bytesIn (attemptBytes (phaseOf s) (bs.map .byte))) :
    ∃ u w, Safety.steps bs.length s = .next u ∧
      Safety.steps (attemptBytes (phaseOf s) (bs.map .byte)).length t = .next w ∧ Replays base u w := by
  induction bs generalizing s t with
  | nil => exact ⟨s, t, rfl, by rw [List.map_nil, attemptBytes_nil]; rfl, h⟩
  | cons b bs ih =>
    obtain ⟨u, hu, hrow, hinv', hready', hin'⟩ := hinv.step_byte hready hin
    rw [List.length_cons, steps_succ, hu, andThen_next]
    by_cases hnoise : Noise s b
    · have hpass : attemptBytes (phaseOf s) ((b :: bs).map .byte) = attemptBytes (phaseOf u) (bs.map .byte) :=
        attemptBytes_noise hrow hnoise _
      rw [hpass] at hreplay ⊢
      exact ih ((h.setInputs _ t.inputs).noise hrow hnoise) hinv' hready' hin' hreplay
    · have hcons : attemptBytes (phaseOf s) ((b :: bs).map .byte) = b :: attemptBytes (phaseOf u) (bs.map .byte) :=
        attemptBytes_attempt hrow hnoise _
      rw [hcons] at hreplay ⊢
      have hreadyt : rxReady t = true := h.core.rxReady_eq.trans hready
      obtain ⟨v, hrowv, hv⟩ :=
        (h.setInputs _ (bytesIn (attemptBytes (phaseOf u) (bs.map .byte)))).attempt hrow hnoise
      obtain ⟨u', w, hu', hw, hr⟩ := ih hv hinv' hready' hin' (tokenStep_environment hrowv).2
      exact ⟨u', w, hu', (steps_token hreadyt hreplay hrowv).trans hw, hr⟩

/-- Settles O46: the mirror sequence is the bytes of the attempts, and a machine that is offered these replays the
other. -/
theorem mirrorReplaysTheAttempts : Obligations.MirrorReplaysTheAttempts := by
  intro s u bs replay hinv hready hst hmirror hin hsteps hmir
  have hattempts : attemptBytes (phaseOf s) (bs.map .byte) = replay := by
    have htokens : s.inputs = (bs.map Token.byte).map .token := by rw [hin, List.map_map]; rfl
    obtain ⟨u', hu', hmir'⟩ := mirrorIsTheFrameAttempts s (bs.map .byte) hinv hready hst htokens
    rw [List.length_map, hsteps] at hu'
    cases hu'
    rw [hmir, hmirror, if_pos rfl] at hmir'
    rw [phaseOf_seek hst, List.append_cancel_left hmir']
  have hstart : Replays (reports s.log) s { s with inputs := bytesIn replay } :=
    ⟨.mk s.verb s.mirrorEn _ s.log, ⟨rfl, rfl⟩, rfl, [], (List.append_nil _).symm, (List.append_nil _).symm⟩
  obtain ⟨u', w, hu', hw, _, ⟨_, hbytes⟩, _, rs, hrs, hreplayed⟩ := hstart.steps hinv hready hin (by rw [hattempts])
  cases hu'.symm.trans hsteps
  rw [hattempts] at hw
  refine ⟨w, hw, hbytes.symm, ?_⟩
  rw [hreplayed, hrs, List.drop_left]
  rfl

end Sys2Proof.Safety
end
